-- ==== Sys2Proof/Word.lean ====
section
/-! DEFINITION. The byte of the SG-8's serial lines and the text made of such bytes. -/

namespace Sys2Proof

/-- One byte of the command link or of a sign line (spec/11 R168). -/
abbrev Byte := BitVec 8

/-- A text field: its characters, each as the byte that carries it (spec/11 R168, spec/00 section 5.4). -/
abbrev Text := List Byte

end Sys2Proof
end

