-- ==== Sys2Proof/Syntax.lean ====
section
/-! DEFINITION. The commands of the SG-8: one constructor for each row of spec/opcode_table.json. -/

namespace Sys2Proof

/-- The lanes 1 to 8 (spec/00 section 5.2). -/
inductive LaneNo where
  | l1 | l2 | l3 | l4 | l5 | l6 | l7 | l8
deriving DecidableEq, Repr

/-- The six inputs of a lane, in the order of the table of spec/03 section 3.1. -/
inductive Input where
  | arrival | stop | exit | upSense | downSense | call
deriving DecidableEq, Repr

/-- The three vehicle loops of a lane (R57). -/
inductive Loop where
  | arrival | stop | exit
deriving DecidableEq, Repr

/-- A command: one row of the table of operations and events. A request of the command link (spec/11 section 11.2.1)
carries the tag and the body bytes of its frame; an event carries what it concerns. -/
inductive Instr where
  | powerOnReset
  | frameReceived (bytes : List Byte)
  | frameGapTimeout
  | unknownKind (tag kind : Byte) (body : List Byte)
  | replySend
  | noticeSend
  | book (tag : Byte) (body : List Byte)
  | amend (tag : Byte) (body : List Byte)
  | cancel (tag : Byte) (body : List Byte)
  | getBooking (tag : Byte) (body : List Byte)
  | getWindows (tag : Byte) (body : List Byte)
  | setCapacity (tag : Byte) (body : List Byte)
  | setClock (tag : Byte) (body : List Byte)
  | getClock (tag : Byte) (body : List Byte)
  | gateClockSecond
  | openLane (tag : Byte) (body : List Byte)
  | closeLane (tag : Byte) (body : List Byte)
  | resetLane (tag : Byte) (body : List Byte)
  | getLane (tag : Byte) (body : List Byte)
  | keyedBooking (tag : Byte) (body : List Byte)
  | lookupAnswer (tag : Byte) (body : List Byte)
  | forceLine (tag : Byte) (body : List Byte)
  | unforceLine (tag : Byte) (body : List Byte)
  | rawLevelChange (lane : LaneNo) (input : Input) (level : Bool)
  | settleExpiry (lane : LaneNo) (input : Input)
  | loopStuckExpiry (lane : LaneNo) (loop : Loop)
  | idSettleExpiry (lane : LaneNo)
  | lookupTimeout (lane : LaneNo)
  | abandonExpiry (lane : LaneNo)
  | plateRead (tag : Byte) (body : List Byte)
  | idRead (tag : Byte) (body : List Byte)
  | sealRead (tag : Byte) (body : List Byte)
  | sealWaitExpiry (lane : LaneNo)
  | survey (tag : Byte) (body : List Byte)
  | surveyWaitExpiry (lane : LaneNo)
  | holdAdd (tag : Byte) (body : List Byte)
  | holdRemove (tag : Byte) (body : List Byte)
  | getHolds (tag : Byte) (body : List Byte)
  | override (tag : Byte) (body : List Byte)
  | unoverride (tag : Byte) (body : List Byte)
  | ready (lane : LaneNo) (count : Byte)
  | signFrameGapTimeout (lane : LaneNo)
  | signText (tag : Byte) (body : List Byte)
  | getSign (tag : Byte) (body : List Byte)
  | stallTimerExpiry (lane : LaneNo)
  | raiseTimerExpiry (lane : LaneNo)
  | lowerTimerExpiry (lane : LaneNo)
  | retryTimerExpiry (entry : Nat)
  | resolve (tag : Byte) (body : List Byte)
  | resolveLane (tag : Byte) (body : List Byte)
  | retryAgain (tag : Byte) (body : List Byte)
  | clearResolved (tag : Byte) (body : List Byte)
  | getExceptions (tag : Byte) (body : List Byte)
  | bayRelease (tag : Byte) (body : List Byte)
  | waitRemove (tag : Byte) (body : List Byte)
  | getBays (tag : Byte) (body : List Byte)
  | set (tag : Byte) (body : List Byte)
  | get (tag : Byte) (body : List Byte)
  | saveSettings (tag : Byte) (body : List Byte)
  | saveComplete
  | loadSettings (tag : Byte) (body : List Byte)
  | defaultSettings (tag : Byte) (body : List Byte)
  | gateOpen (tag : Byte) (body : List Byte)
  | gateShut (tag : Byte) (body : List Byte)
  | restart (tag : Byte) (body : List Byte)
  | getCounters (tag : Byte) (body : List Byte)
  | identify (tag : Byte) (body : List Byte)
  | signFrameReceived (lane : LaneNo) (bytes : List Byte)
  | powerLoss
deriving DecidableEq, Repr

end Sys2Proof
end

