-- ==== Sys2Proof/Decode.lean ====
section
/-! DEFINITION. Which command a word of the opcode table spells, and which command a request kind of the command
link names. The table gives no row any bits (spec/98_reader.md: n_rows_with_fixed 0), so no word spells a command. -/

namespace Sys2Proof

/-- The command that a word spells by the bits of spec/opcode_table.json: the table gives none. -/
def decodeTableWord (_nbits _w : Nat) : Option Instr := none

/-- The request kinds of the catalogue (spec/11 section 11.2.1) with the command each names; none for any other kind. -/
def requestOf (kind : Nat) (tag : Byte) (body : List Byte) : Option Instr :=
  match kind with
  | 0x01 => some (.book tag body)
  | 0x02 => some (.amend tag body)
  | 0x03 => some (.cancel tag body)
  | 0x04 => some (.getBooking tag body)
  | 0x05 => some (.getWindows tag body)
  | 0x06 => some (.setCapacity tag body)
  | 0x07 => some (.setClock tag body)
  | 0x08 => some (.getClock tag body)
  | 0x09 => some (.openLane tag body)
  | 0x0A => some (.closeLane tag body)
  | 0x0B => some (.resetLane tag body)
  | 0x0C => some (.getLane tag body)
  | 0x0D => some (.keyedBooking tag body)
  | 0x0E => some (.lookupAnswer tag body)
  | 0x0F => some (.forceLine tag body)
  | 0x10 => some (.unforceLine tag body)
  | 0x11 => some (.plateRead tag body)
  | 0x12 => some (.idRead tag body)
  | 0x13 => some (.sealRead tag body)
  | 0x14 => some (.survey tag body)
  | 0x15 => some (.holdAdd tag body)
  | 0x16 => some (.holdRemove tag body)
  | 0x17 => some (.override tag body)
  | 0x18 => some (.unoverride tag body)
  | 0x19 => some (.signText tag body)
  | 0x1A => some (.getSign tag body)
  | 0x1B => some (.bayRelease tag body)
  | 0x1C => some (.waitRemove tag body)
  | 0x1D => some (.getBays tag body)
  | 0x1E => some (.resolve tag body)
  | 0x1F => some (.resolveLane tag body)
  | 0x20 => some (.retryAgain tag body)
  | 0x21 => some (.clearResolved tag body)
  | 0x22 => some (.getExceptions tag body)
  | 0x23 => some (.set tag body)
  | 0x24 => some (.get tag body)
  | 0x25 => some (.saveSettings tag body)
  | 0x26 => some (.loadSettings tag body)
  | 0x27 => some (.defaultSettings tag body)
  | 0x28 => some (.gateOpen tag body)
  | 0x29 => some (.gateShut tag body)
  | 0x2A => some (.restart tag body)
  | 0x2B => some (.getCounters tag body)
  | 0x2C => some (.getHolds tag body)
  | 0x2D => some (.identify tag body)
  | _ => none

/-- The command that the taking of a request frame is: its row of the table, or UNKNOWN_KIND for a kind outside the
catalogue and for tag 0 (R170). -/
def commandOfFrame (tag kind : Byte) (body : List Byte) : Instr :=
  if tag = 0 then .unknownKind tag kind body
  else (requestOf kind.toNat tag body).getD (.unknownKind tag kind body)

end Sys2Proof
end

