-- ==== Sys2Proof/Config.lean ====
section
/-! DEFINITION. What is fixed for the part (sizes of its tables) and the values its manual leaves open. -/

namespace Sys2Proof

/-- Booking records the Booking Table holds (R1). -/
def Config.bookingMax : Nat := 2048
/-- Windows of the Window Table: today 0 to 47, tomorrow 48 to 95 (spec/01 section 1.3). -/
def Config.windowCount : Nat := 96
/-- Windows of one day. -/
def Config.dayWindows : Nat := 48
/-- The largest booking number (spec/01 section 1.1). -/
def Config.bookingNumberMax : Nat := 99999999
/-- Entries of the Hold List (R80). -/
def Config.holdMax : Nat := 64
/-- Entries of the Exception Table (R153). -/
def Config.entryMax : Nat := 32
/-- Records of one direction queue (R133). -/
def Config.queueMax : Nat := 6
/-- Entries of the Waiting List (R143). -/
def Config.waitingMax : Nat := 16
/-- The most bays (R151). -/
def Config.bayMax : Nat := 8
/-- Notices of the notice queue (R172). -/
def Config.noticeMax : Nat := 32
/-- Bytes of the receive buffer (R169). -/
def Config.rxBytes : Nat := 2048
/-- The most bytes of a frame's body (R168). -/
def Config.bodyMax : Nat := 500
/-- The top of every counter of spec/11 section 11.7. -/
def Config.counterMax : Nat := 65535

/-- What a power loss or a reset during a settings write leaves in the stored image. -/
inductive Config.ImageLoss where
  /-- the image is left incomplete, its CRC fails -/
  | incomplete
  /-- the image is still the one before the write -/
  | before
  /-- the write had come to its end -/
  | after
deriving DecidableEq, Repr, Inhabited

/-- FREE VALUE (log 6). The CRC-16 over the settings image (R174, R175): the manual gives no layout of the image,
so the CRC is open; it depends on the settings' values alone. -/
opaque Config.imageCrc : List Nat → BitVec 16

/-- FREE VALUE (log 7). Whether a settings write cut short leaves the image incomplete ('may be left incomplete', R174). -/
opaque Config.imageLoss : Nat → Config.ImageLoss

/-- FREE VALUE (log 8). What GET reports as the response of WATCH_HIT, which has no response setting and whose fixed response
follows the action of the Hold List entry (section 10.2, R155, R173). -/
opaque Config.watchHitResponse : BitVec 16

/-- FREE VALUE (log 8). What GET reports as the retry limit of a kind that has no retry step (R155, R173). -/
opaque Config.noRetryLimit : Nat → BitVec 16

/-- FREE VALUE (log 9). The two bytes GET_EXCEPTIONS reports as the next entry number while the numbering is
exhausted (R154, R166). -/
opaque Config.exhaustedNext : BitVec 16

end Sys2Proof
end

