-- ==== Sys2Proof/Machine/State.lean ====
section
/-! DEFINITION. The state of the SG-8 as plain data: every table, queue, register, mark, timer and counter the manual
gives the part, and the state right after power-on reset. Timer fields hold the time left: lane, barrier, stuck,
stall, retry and save timers in tenths of a second, pending settles in steps of 10 ms. -/

namespace Sys2Proof.Machine

/-! ### Families of like things -/

/-- One thing for each lane. -/
structure PerLane (α : Type) where
  a1 : α
  a2 : α
  a3 : α
  a4 : α
  a5 : α
  a6 : α
  a7 : α
  a8 : α
deriving DecidableEq, Repr

/-- The thing of one lane. -/
def PerLane.get {α : Type} (p : PerLane α) : LaneNo → α
  | .l1 => p.a1 | .l2 => p.a2 | .l3 => p.a3 | .l4 => p.a4
  | .l5 => p.a5 | .l6 => p.a6 | .l7 => p.a7 | .l8 => p.a8

/-- The family with the thing of one lane replaced. -/
def PerLane.set {α : Type} (p : PerLane α) (l : LaneNo) (x : α) : PerLane α :=
  match l with
  | .l1 => { p with a1 := x } | .l2 => { p with a2 := x } | .l3 => { p with a3 := x } | .l4 => { p with a4 := x }
  | .l5 => { p with a5 := x } | .l6 => { p with a6 := x } | .l7 => { p with a7 := x } | .l8 => { p with a8 := x }

/-- The family made lane by lane from another. -/
def PerLane.map {α β : Type} (f : α → β) (p : PerLane α) : PerLane β :=
  ⟨f p.a1, f p.a2, f p.a3, f p.a4, f p.a5, f p.a6, f p.a7, f p.a8⟩

/-- The same thing for each lane. -/
def PerLane.fill {α : Type} (x : α) : PerLane α := ⟨x, x, x, x, x, x, x, x⟩

/-- The eight lanes in order. -/
def allLanes : List LaneNo := [.l1, .l2, .l3, .l4, .l5, .l6, .l7, .l8]

/-- One thing for each input of a lane. -/
structure PerInput (α : Type) where
  arrival : α
  stop : α
  exit : α
  upSense : α
  downSense : α
  call : α
deriving DecidableEq, Repr

/-- The thing of one input. -/
def PerInput.get {α : Type} (p : PerInput α) : Input → α
  | .arrival => p.arrival | .stop => p.stop | .exit => p.exit
  | .upSense => p.upSense | .downSense => p.downSense | .call => p.call

/-- The family with the thing of one input replaced. -/
def PerInput.set {α : Type} (p : PerInput α) (i : Input) (x : α) : PerInput α :=
  match i with
  | .arrival => { p with arrival := x } | .stop => { p with stop := x } | .exit => { p with exit := x }
  | .upSense => { p with upSense := x } | .downSense => { p with downSense := x } | .call => { p with call := x }

/-- The six inputs in order. -/
def allInputs : List Input := [.arrival, .stop, .exit, .upSense, .downSense, .call]

/-- One thing for each loop of a lane. -/
structure PerLoop (α : Type) where
  arrival : α
  stop : α
  exit : α
deriving DecidableEq, Repr

/-- The thing of one loop. -/
def PerLoop.get {α : Type} (p : PerLoop α) : Loop → α
  | .arrival => p.arrival | .stop => p.stop | .exit => p.exit

/-- The family with the thing of one loop replaced. -/
def PerLoop.set {α : Type} (p : PerLoop α) (i : Loop) (x : α) : PerLoop α :=
  match i with
  | .arrival => { p with arrival := x } | .stop => { p with stop := x } | .exit => { p with exit := x }

/-- The three loops in order. -/
def allLoops : List Loop := [.arrival, .stop, .exit]

/-! ### Bookings and windows (spec/01) -/

/-- The states of a booking (section 1.1.1). -/
inductive BookingState where
  | opened | inLane | admitted | cancelled | noShow
deriving DecidableEq, Repr

/-- The kinds of a move. -/
inductive MoveKind where
  | deliverFull | returnEmpty | pickImport | pickEmpty
deriving DecidableEq, Repr

/-- The length classes of a box. -/
inductive LengthClass where
  | l20 | l40 | l45
deriving DecidableEq, Repr

/-- One move entry of a booking (section 1.1); `released` is the release state of a PICK_IMPORT move. -/
structure Move where
  kind : MoveKind
  length : LengthClass
  cid : Option Text
  seals : List Text
  known : Nat
  block : Text
  row : Nat
  released : Bool
deriving DecidableEq, Repr

/-- One booking record (section 1.1); `claim` is the claimed lane and visit number while IN_LANE. -/
structure Booking where
  number : Nat
  state : BookingState
  window : Nat
  plate : Option Text
  moves : List Move
  units : Nat
  claim : Option (LaneNo × Nat)
  moved : Bool
  admittedMinute : Option Nat
deriving DecidableEq, Repr

/-- One window record (section 1.3). -/
structure Window where
  capacity : Nat
  booked : Nat
  admitted : Nat
  expired : Bool
  overFlag : Bool
deriving DecidableEq, Repr

/-- The Booking Unit: Booking Table, finalisation order list, Window Table. -/
structure BookUnit where
  table : List Booking
  final : List Nat
  windows : List Window
deriving DecidableEq, Repr

/-- The Gate Clock (R14). -/
structure Clock where
  day : Nat
  minute : Nat
  second : Nat
  valid : Bool
deriving DecidableEq, Repr

/-- The timeliness classes (R21). -/
inductive Timeliness where
  | early | onTime | grace | late
deriving DecidableEq, Repr

/-! ### Visits (spec/02, 04, 05, 06, 07) -/

/-- The two container positions. -/
inductive Pos where
  | front | rear
deriving DecidableEq, Repr

/-- The actions of a Hold List entry (R80). -/
inductive WatchAction where
  | inspect | hold
deriving DecidableEq, Repr

/-- A watch mark: the action and reason code of the WATCH_HIT taken (section 4.1). -/
structure Watch where
  action : WatchAction
  reason : Nat
deriving DecidableEq, Repr

/-- The sources of a seal read. -/
inductive SealSource where
  | reader | clerk
deriving DecidableEq, Repr

/-- A seal seen on a box, or an unplaced one (section 5.1). -/
structure SeenSeal where
  text : Text
  source : SealSource
deriving DecidableEq, Repr

/-- How a position came by its bring-in move (R89). -/
inductive Basis where
  | recorded | expected
deriving DecidableEq, Repr

/-- The seal outcomes (section 5.1). -/
inductive SealOutcome where
  | pending | ok | mismatch | unexpected | missing | notApplicable
deriving DecidableEq, Repr

/-- The phases of a seal or damage part. -/
inductive Phase where
  | opened | extended | closed
deriving DecidableEq, Repr

/-- The seal part of a position (section 5.1); `entry` is the number of the part's stored SEAL_MISSING entry, by which
R96 finds the part wherever R89 has moved it. -/
structure SealPart where
  seen : List SeenSeal
  move : Option (Nat × Basis)
  outcome : SealOutcome
  phase : Phase
  mismatchMark : Bool
  unexpectedMark : Bool
  missingMark : Bool
  entry : Option Nat
deriving DecidableEq, Repr

/-- The five panels of a box (R100). -/
inductive Panel where
  | left | right | frontEnd | doorEnd | roof
deriving DecidableEq, Repr

/-- The types of a defect (R100). -/
inductive DefectType where
  | dent | bulge | scrape | tear | hole
deriving DecidableEq, Repr

/-- One defect of a survey, its area as clamped by R101. -/
structure Defect where
  panel : Panel
  type : DefectType
  depth : Nat
  area : Nat
deriving DecidableEq, Repr

/-- A survey kept in a damage part; `order` counts the SURVEY messages of the visit (R99: the later of two). -/
structure Survey where
  defects : List Defect
  order : Nat
deriving DecidableEq, Repr

/-- One thing for each panel. -/
structure PerPanel (α : Type) where
  left : α
  right : α
  frontEnd : α
  doorEnd : α
  roof : α
deriving DecidableEq, Repr

/-- The thing of one panel. -/
def PerPanel.get {α : Type} (p : PerPanel α) : Panel → α
  | .left => p.left | .right => p.right | .frontEnd => p.frontEnd | .doorEnd => p.doorEnd | .roof => p.roof

/-- The family with the thing of one panel replaced. -/
def PerPanel.set {α : Type} (p : PerPanel α) (i : Panel) (x : α) : PerPanel α :=
  match i with
  | .left => { p with left := x } | .right => { p with right := x } | .frontEnd => { p with frontEnd := x }
  | .doorEnd => { p with doorEnd := x } | .roof => { p with roof := x }

/-- The damage outcomes (section 6.1). -/
inductive DamageOutcome where
  | pending | clean | noted | severe | unsurveyed | notApplicable
deriving DecidableEq, Repr

/-- The damage part of a position (section 6.1). `survived` is the number of defects that passed the filter (R103);
`effectInspect` the survey-missing effect as read when the part took UNSURVEYED (R111); `entry` the number of the
part's stored SURVEY_MISSING entry (R112). -/
structure DamagePart where
  held : Option Survey
  graded : Option Survey
  knownUsed : Nat
  sums : PerPanel Nat
  index : Nat
  excess : Nat
  breach : Bool
  survived : Nat
  outcome : DamageOutcome
  phase : Phase
  notedMark : Bool
  severeMark : Bool
  missingMark : Bool
  effectInspect : Bool
  entry : Option Nat
deriving DecidableEq, Repr

/-- A position record (section 4.1) with its seal and damage parts. `made` is set once the record has been made (R67);
until then every field has its made value. -/
structure PosRec where
  made : Bool
  cid : Option Text
  spanning : Bool
  misreads : Nat
  unreadable : Bool
  conflict : Bool
  mismatch : Bool
  watch : Option Watch
  sealPart : SealPart
  damage : DamagePart
deriving DecidableEq, Repr

/-- The match states (section 2.2). -/
inductive MatchState where
  | notTried | looking | waiting | claimed | failed
deriving DecidableEq, Repr

/-- The verdicts. -/
inductive Verdict where
  | admitIn | inspect | turnAway
deriving DecidableEq, Repr

/-- The bay step of a visit. -/
inductive BayStep where
  | notNeeded | pending | done
deriving DecidableEq, Repr

/-- The ten checks, in the order of the table of section 7.1. -/
inductive CheckName where
  | booking | timeliness | release | watch | idFront | idRear | sealFront | sealRear | damageFront | damageRear
deriving DecidableEq, Repr

/-- The outcomes of checks and the values a check stands at, in the order of R168's one list. -/
inductive Outcome where
  | pending | pass | fail | clean | noted | severe
  | noBooking | bookingInUse | windowEarly | windowLateFull | notReleased | watchHit
  | containerMismatch | idConflict | idUnreadable | sealMismatch | sealUnexpected | sealMissing | surveyMissing
deriving DecidableEq, Repr

/-- The kinds of exception, in the order of the table of spec/10 section 10.2. -/
inductive ExcKind where
  | idUnreadable | idConflict | containerMismatch | plateMismatch | noBooking | bookingInUse | windowEarly
  | windowLateFull | notReleased | sealMissing | sealMismatch | sealUnexpected | surveyMissing | damageNoted
  | damageSevere | watchHit | inspectionFull | barrierFault | loopFault | signStalled | settingsRestored
deriving DecidableEq, Repr

/-- The identities of a visit that the Hold List is tested against (R83). -/
inductive Identity where
  | plate | front | rear
deriving DecidableEq, Repr

/-- What a check's waivers hold (R115): a kind of the check, or for WATCH an identity. -/
inductive Waiver where
  | kind (k : ExcKind)
  | identity (i : Identity)
deriving DecidableEq, Repr

/-- A check record (R115); `override` is absent, PASS (`some true`) or FAIL (`some false`). -/
structure Check where
  outcome : Outcome
  override : Option Bool
  changed : Bool
  ignored : Nat
  waivers : List Waiver
deriving DecidableEq, Repr

/-- The ten check records of a visit. -/
structure Checks where
  booking : Check
  timeliness : Check
  release : Check
  watch : Check
  idFront : Check
  idRear : Check
  sealFront : Check
  sealRear : Check
  damageFront : Check
  damageRear : Check
deriving DecidableEq, Repr

/-- The record of one check. -/
def Checks.get (c : Checks) : CheckName → Check
  | .booking => c.booking | .timeliness => c.timeliness | .release => c.release | .watch => c.watch
  | .idFront => c.idFront | .idRear => c.idRear | .sealFront => c.sealFront | .sealRear => c.sealRear
  | .damageFront => c.damageFront | .damageRear => c.damageRear

/-- The records with one check replaced. -/
def Checks.set (c : Checks) (n : CheckName) (x : Check) : Checks :=
  match n with
  | .booking => { c with booking := x } | .timeliness => { c with timeliness := x }
  | .release => { c with release := x } | .watch => { c with watch := x }
  | .idFront => { c with idFront := x } | .idRear => { c with idRear := x }
  | .sealFront => { c with sealFront := x } | .sealRear => { c with sealRear := x }
  | .damageFront => { c with damageFront := x } | .damageRear => { c with damageRear := x }

/-- The ten checks in order. -/
def allChecks : List CheckName :=
  [.booking, .timeliness, .release, .watch, .idFront, .idRear, .sealFront, .sealRear, .damageFront, .damageRear]

/-- The deciding reason of a verdict (R126); a reason that names a check carries the value the check stands at. -/
inductive Reason where
  | forced
  | noClaim
  | check (c : CheckName) (v : Outcome)
deriving DecidableEq, Repr

/-- The visit context (section 2.2). `lastBooking` and `lastTimeliness` are the outcomes R117 gives by the last of its
events; `attempted` says that an attempt to form the verdict has been made (R123); `handed` that the verdict has gone
to the Direction Unit (R46); `delivered` and `stallReleased` keep the Direction Unit's reports (R41); `searchRetried` says
that a NO_BOOKING entry of the visit stands, or has stood, under RETRY (R35). -/
structure Visit where
  number : Nat
  plate : Option Text
  plateWatch : Option Watch
  front : PosRec
  rear : PosRec
  unplaced : List SeenSeal
  keyed : Option Nat
  matchState : MatchState
  claimed : Option Nat
  refused : Option Nat
  timeliness : Option Timeliness
  checks : Checks
  lastBooking : Outcome
  lastTimeliness : Outcome
  turnAwayMark : Bool
  releaseMark : Bool
  attempted : Bool
  verdict : Option Verdict
  reason : Option Reason
  bayStep : BayStep
  bay : Option Nat
  waiting : Bool
  hold : Option Nat
  handed : Bool
  delivered : Bool
  stallReleased : Bool
  searchRetried : Bool
  raiseCommanded : Bool
  passage : Bool
  lowerHeld : Bool
  surveys : Nat
  idSettle : Option Nat
  lookup : Option Nat
  abandon : Option Nat
  sealWait : Option Nat
  surveyWait : Option Nat
deriving DecidableEq, Repr

/-- The record of one position. -/
def Visit.pos (v : Visit) : Pos → PosRec
  | .front => v.front
  | .rear => v.rear

/-- The visit with one position record replaced. -/
def Visit.setPos (v : Visit) (p : Pos) (r : PosRec) : Visit :=
  match p with
  | .front => { v with front := r }
  | .rear => { v with rear := r }

/-! ### Lanes (spec/02, 03, 08) -/

/-- The lane states (section 2.1). -/
inductive LaneState where
  | closed | idle | arriving | awaitingHost | checking | decided | exiting | trouble
deriving DecidableEq, Repr

/-- The line record of an input (R51); its polarity and settle time are settings, its conditioned value is a function
of the force and the settled value. -/
structure LineRec where
  raw : Bool
  settled : Bool
  pending : Option Nat
  force : Option Bool
deriving DecidableEq, Repr

/-- The stuck watch of a loop (R57). -/
structure StuckWatch where
  left : Option Nat
  reported : Bool
deriving DecidableEq, Repr

/-- The barrier states (section 3.5). -/
inductive BarrierState where
  | down | raising | up | lowering | fault
deriving DecidableEq, Repr

/-- The motions of the barrier. -/
inductive Motion where
  | raise | lower
deriving DecidableEq, Repr

/-- The barrier machine's record (R58). -/
structure Barrier where
  state : BarrierState
  pending : Option Motion
  faultMark : Bool
  exitHold : Bool
  left : Option Nat
deriving DecidableEq, Repr

/-- The lane lamp. -/
inductive Lamp where
  | green | red
deriving DecidableEq, Repr

/-- The content of a direction record by its kind (section 8.1). -/
inductive Direction where
  | goToStop (block : Text) (row : Nat)
  | goToBay (bay : Nat)
  | goToHolding
  | turnAround (reason : Nat)
  | seeClerk (reason : Nat)
  | text (t : Text)
deriving DecidableEq, Repr

/-- One record of a group in a direction queue (section 8.1, R132). Its lane is the queue's, its visit number and group
size are the group's, its index is its place in the group. -/
structure DirRec where
  dir : Direction
  sent : Bool
deriving DecidableEq, Repr

/-- A group of direction records; visit number 0 stands for host text. -/
structure Group where
  visit : Nat
  recs : List DirRec
deriving DecidableEq, Repr

/-- The direction state of a lane and its sign line (R133, R136, R139, R185). `out` is the model's record of the
frames that have left on the sign line. -/
structure Sign where
  queue : List Group
  credit : Nat
  stall : Option Nat
  reported : Bool
  rx : List Byte
  out : List (List Byte)
deriving DecidableEq, Repr

/-- The counters kept per lane (spec/11 section 11.7). -/
structure LaneCounters where
  visits : Nat
  admitted : Nat
  inspect : Nat
  turnedAway : Nat
  abandoned : Nat
  misreads : Nat
  duplicates : Nat
  forcedRaw : Nat
  discarded : Nat
  reversals : Nat
deriving DecidableEq, Repr

/-- The lane timers noted as running when TROUBLE was entered (R28) that R46 starts again. -/
structure Noted where
  idSettle : Bool
  sealWait : Bool
  surveyWait : Bool
deriving DecidableEq, Repr

/-- One lane: its record (R25), lines, watches, barrier, lamp, sign and counters. -/
structure Lane where
  state : LaneState
  interrupted : Option LaneState
  closePending : Bool
  visit : Option Visit
  noted : Noted
  lamp : Lamp
  lines : PerInput LineRec
  stuck : PerLoop StuckWatch
  barrier : Barrier
  sign : Sign
  counters : LaneCounters
deriving DecidableEq, Repr

/-! ### Hold List, Exception Table, Bay Pool (spec/04, 10, 09) -/

/-- The kinds of a Hold List entry. -/
inductive HoldKind where
  | plate | container
deriving DecidableEq, Repr

/-- A Hold List entry (R80). -/
structure HoldEntry where
  kind : HoldKind
  pattern : Text
  action : WatchAction
  reason : Nat
deriving DecidableEq, Repr

/-- The responses of an exception. -/
inductive Response where
  | hold | retry | note | silent
deriving DecidableEq, Repr

/-- The states of an entry. -/
inductive EntryState where
  | opened | logged | resolved
deriving DecidableEq, Repr

/-- The outcomes of a resolution. -/
inductive Resolution where
  | waive | uphold | turnAway | cleared | overridden | discarded
deriving DecidableEq, Repr

/-- An exception entry (section 10.1). `left` is the retry timer (R159); `called` is set once the entry's retry step has
been called (R77: the first call). -/
structure Entry where
  number : Nat
  kind : ExcKind
  lane : Option LaneNo
  visit : Option Nat
  pos : Option Pos
  detail : Nat
  minute : Nat
  response : Response
  retries : Nat
  state : EntryState
  outcome : Option Resolution
  left : Option Nat
  called : Bool
deriving DecidableEq, Repr

/-- The Exception Table (R153). `next` is the next entry number; above 65535 the numbering is exhausted (R154). -/
structure ExcTable where
  entries : List Entry
  lost : Nat
  full : Bool
  unrecorded : PerLane Bool
  next : Nat
deriving DecidableEq, Repr

/-- The record of a visit that an ASSIGNED bay and a waiting entry carry (section 9.1). `join` numbers the joinings of the pool,
and by it two holds of one visit number are told apart (R143; log 38). -/
structure BayHold where
  visit : Nat
  lane : LaneNo
  booking : Nat
  cids : List Text
  minute : Nat
  join : Nat
deriving DecidableEq, Repr

/-- The Bay Pool (R143): the bays 1 to the bay count in order, FREE (`none`) or ASSIGNED, and the Waiting List. -/
structure BayPool where
  bays : List (Option BayHold)
  waiting : List BayHold
deriving DecidableEq, Repr

/-! ### Settings (spec/11 section 11.4) -/

/-- The notice kinds, in the order of codes 0x60 to 0x6B. -/
inductive NoticeKind where
  | laneState | lookup | reread | verdict | exception | autoCleared | bayAssigned | windowExpired | rollover
  | gateState | call | settingsDone
deriving DecidableEq, Repr

/-- The working settings, in the order of the settings table. -/
structure Settings where
  defaultCapacity : Nat
  lateGrace : Nat
  earlyTolerance : Nat
  pullForward : Bool
  activeLow : PerLane (PerInput Bool)
  settleSteps : PerLane (PerInput Nat)
  loopStuck : Nat
  raiseTime : Nat
  lowerTime : Nat
  idSettle : Nat
  lookup : Nat
  abandon : Nat
  sealWait : Nat
  surveyWait : Nat
  misreadLimit : Nat
  minDepth : Nat
  weights : PerPanel Nat
  noteThreshold : Nat
  severeThreshold : Nat
  surveyMissingInspect : Bool
  signCapacity : PerLane Nat
  signStall : Nat
  bayCount : Nat
  responses : Vector Response 21
  limits : Vector Nat 21
  retryInterval : Nat
  masks : Vector Bool 12
deriving DecidableEq, Repr

/-- The default of every setting (spec/11 section 11.4, spec/10 section 10.2). The places of kinds without a response
setting or a retry step hold HOLD, HOLD, NOTE and 0 and are read by nothing. -/
def Settings.default : Settings where
  defaultCapacity := 40
  lateGrace := 20
  earlyTolerance := 15
  pullForward := false
  activeLow := .fill ⟨false, false, false, false, false, false⟩
  settleSteps := .fill ⟨20, 20, 20, 5, 5, 5⟩
  loopStuck := 6000
  raiseTime := 60
  lowerTime := 60
  idSettle := 40
  lookup := 300
  abandon := 200
  sealWait := 150
  surveyWait := 200
  misreadLimit := 3
  minDepth := 6
  weights := ⟨3, 3, 4, 6, 6⟩
  noteThreshold := 40
  severeThreshold := 200
  surveyMissingInspect := false
  signCapacity := .fill 4
  signStall := 80
  bayCount := 4
  responses := #v[.retry, .hold, .hold, .note, .retry, .hold, .note, .note, .note, .retry, .note, .note, .retry, .note,
    .note, .hold, .hold, .retry, .note, .note, .note]
  limits := #v[2, 0, 0, 0, 1, 0, 0, 0, 0, 1, 0, 0, 1, 0, 0, 0, 0, 2, 0, 0, 0]
  retryInterval := 30
  masks := #v[true, true, true, true, true, true, true, true, true, true, true, true]

/-- The stored settings image (R174, R176): never written, left incomplete by a write cut short (both fail the CRC
check), or whole. -/
inductive Image where
  | neverWritten
  | incomplete
  | whole (w : Settings)
deriving DecidableEq, Repr

/-- A settings write in progress (R174): the settings as they stood, the request's tag, the time left. -/
structure SaveJob where
  image : Settings
  tag : Byte
  left : Nat
deriving DecidableEq, Repr

/-- The Settings Store; `restartTag` is the tag of a RESTART that waits for the write (R171). -/
structure Store where
  work : Settings
  image : Image
  saving : Option SaveJob
  restartTag : Option Byte
deriving DecidableEq, Repr

/-! ### Command link (spec/11) -/

/-- The statuses of a reply, in the order of their codes. -/
inductive Status where
  | ok | clamped | busy | malformed | unknownKind | range | notFound | duplicate | wrongState | full | noCapacity
  | notApplied | tooLate
deriving DecidableEq, Repr

/-- A whole frame waiting in the receive buffer. -/
structure Frame where
  tag : Byte
  kind : Byte
  body : List Byte
deriving DecidableEq, Repr

/-- A reply: the tag, the reply kind, the status, and the fields after it. -/
structure Reply where
  tag : Byte
  kind : Byte
  status : Status
  data : List Byte
deriving DecidableEq, Repr

/-- A queued notice: its kind and the body after the notices-lost count. -/
structure Notice where
  kind : NoticeKind
  data : List Byte
deriving DecidableEq, Repr

/-- A message made ready for the transmit side. -/
inductive OutMsg where
  | notice (n : Notice)
  | reply (r : Reply)
deriving DecidableEq, Repr

/-- The Command Link (R169, R170, R172). `rxPart` is the frame partly received, empty while hunting; `outbox` holds the
queued notices and the formed replies in the order in which they were made ready; `sent` is the model's record of
the frames that have left. -/
structure Link where
  rxPart : List Byte
  rxBuffer : List Frame
  outbox : List OutMsg
  lostByte : Nat
  badFrames : Nat
  overflows : Nat
  noticesLost : Nat
  sent : List (List Byte)
deriving DecidableEq, Repr

/-! ### The whole state -/

/-- The gate modes (R177). -/
inductive GateMode where
  | shut | opened | draining
deriving DecidableEq, Repr

/-- The state of the part. `power` is set while power is applied; `phase` counts the tens of milliseconds of the
running second; `freeIndex` counts the free values drawn (log 7); `pending` is the queue of commands. -/
structure State where
  power : Bool
  gate : GateMode
  clock : Clock
  book : BookUnit
  lanes : PerLane Lane
  nextVisit : Nat
  holds : List HoldEntry
  exc : ExcTable
  pool : BayPool
  store : Store
  link : Link
  phase : Nat
  freeIndex : Nat
  pending : List Instr
deriving DecidableEq, Repr

/-- No command of the part stops it: the manual describes no fault that ends its work (INVENTORY, Faults), so there is
no constructor. Safe: a claim about faults is about nothing. -/
inductive Fault
deriving DecidableEq, Repr

/-- The reasons a command is refused by the model. -/
inductive Refusal where
  /-- Raised by an arm of exec whose command has no meaning yet. Safe: nothing is claimed of such a command. -/
  | notModelled (mnemonic : String)
deriving DecidableEq, Repr

/-! ### Reset -/

/-- A seal part as made with its position record (section 5.1). -/
def SealPart.fresh : SealPart := ⟨[], none, .pending, .opened, false, false, false, none⟩

/-- A damage part as made with its position record (section 6.1). DESIGN CHOICE, unsafe (log 39): the number of surviving defects,
which the table of section 6.1 does not list, is 0 until a survey is evaluated. -/
def DamagePart.fresh : DamagePart :=
  ⟨none, none, 0, ⟨0, 0, 0, 0, 0⟩, 0, 0, false, 0, .pending, .opened, false, false, false, false, none⟩

/-- A position without a record: every field as the record is made with. -/
def PosRec.absent : PosRec := ⟨false, none, false, 0, false, false, false, none, .fresh, .fresh⟩

/-- A check record as made when the visit opens (R115). -/
def Check.fresh : Check := ⟨.pending, none, false, 0, []⟩

/-- A line record after reset: the settled value is taken at once from the raw level and the polarity (R51). -/
def LineRec.reset (activeLow raw : Bool) : LineRec := ⟨raw, raw != activeLow, none, none⟩

/-- A new window with the default capacity (section 1.3). -/
def Window.new (cap : Nat) : Window := ⟨cap, 0, 0, false, false⟩

/-- The barrier after reset (R58). -/
def Barrier.reset (downSense : Bool) : Barrier :=
  if downSense then ⟨.down, none, false, false, none⟩ else ⟨.fault, some .lower, false, false, none⟩

/-- All counters of a lane at 0. -/
def LaneCounters.zero : LaneCounters := ⟨0, 0, 0, 0, 0, 0, 0, 0, 0, 0⟩

/-- A lane after reset with its six raw levels and their polarities, and the sign messages sent so far (R25, R51, R57,
R58, R66, R133, R136, R139). -/
def Lane.reset (activeLow raw : PerInput Bool) (signOut : List (List Byte)) : Lane where
  state := .closed
  interrupted := none
  closePending := false
  visit := none
  noted := ⟨false, false, false⟩
  lamp := .red
  lines :=
    ⟨.reset activeLow.arrival raw.arrival, .reset activeLow.stop raw.stop, .reset activeLow.exit raw.exit,
      .reset activeLow.upSense raw.upSense, .reset activeLow.downSense raw.downSense, .reset activeLow.call raw.call⟩
  stuck := ⟨⟨none, false⟩, ⟨none, false⟩, ⟨none, false⟩⟩
  barrier := .reset (raw.downSense != activeLow.downSense)
  sign := ⟨[], 0, none, false, [], signOut⟩
  counters := .zero

/-- The entry SETTINGS_RESTORED that a power-on reset with a bad image stores as entry 1 (R153, R176). -/
def Entry.settingsRestored : Entry :=
  ⟨1, .settingsRestored, none, none, none, 0, 0, .note, 0, .logged, none, none, false⟩

/-- The EXCEPTION notice of that entry (R167): number 1, kind 20, no lane, no visit, no position, detail 0, minute 0,
response NOTE, retry count 0, state LOGGED, no outcome, cause STORED. -/
def Notice.settingsRestored : Notice :=
  ⟨.exception, [1, 0, 20, 0, 0, 0, 0, 0, 0, 0, 2, 0, 1, 0, 0]⟩

/-- The CLEAR frame of the sign lines (R129, R185), sent on every sign line at a reset (R141). -/
def clearFrame : List Byte := [0xA5, 2, 0, 0, 3, 0xCB, 0x59]

/-- The part right after its first power-on reset (R180): the stored image was never written (R176; log 4) and every
raw input level is low (log 5). -/
def State.reset : State where
  power := true
  gate := .shut
  clock := ⟨0, 0, 0, false⟩
  book := ⟨[], [], List.replicate 96 (.new 40)⟩
  lanes := .fill (.reset ⟨false, false, false, false, false, false⟩ ⟨false, false, false, false, false, false⟩ [clearFrame])
  nextVisit := 1
  holds := []
  exc := ⟨[.settingsRestored], 0, false, .fill false, 2⟩
  pool := ⟨[none, none, none, none], []⟩
  store := ⟨.default, .neverWritten, none, none⟩
  link := ⟨[], [], [.notice .settingsRestored], 0, 0, 0, 0, []⟩
  phase := 0
  freeIndex := 0
  pending := []

end Sys2Proof.Machine
end

