-- ==== Sys2Proof/Machine/Codec.lean ====
section
/-! DEFINITION. The bytes of the serial lines: field coding, CRC-16, frames, and the receiver's hunt (R168, R169). -/

namespace Sys2Proof.Machine

/-! ### Fields (R168) -/

/-- A one-byte field. -/
def u8 (n : Nat) : List Byte := [BitVec.ofNat 8 n]

/-- A two-byte field, little-endian. -/
def u16 (n : Nat) : List Byte := [BitVec.ofNat 8 n, BitVec.ofNat 8 (n / 256)]

/-- A four-byte field, little-endian (a booking number). -/
def u32 (n : Nat) : List Byte :=
  [BitVec.ofNat 8 n, BitVec.ofNat 8 (n / 256), BitVec.ofNat 8 (n / 65536), BitVec.ofNat 8 (n / 16777216)]

/-- A mark or flag of a body. DESIGN CHOICE, unsafe (log 28): 0 clear, 1 set, like the presence marks of R168. -/
def flag (b : Bool) : List Byte := if b then [1] else [0]

/-- An enumerated field of two values, numbered from 0 in the order in which the manual lists them (R168): 0 while the value
listed first holds, else 1. -/
def oneOfTwo (first : Bool) : List Byte := if first then [0] else [1]

/-- The value of a line: active 0, inactive 1, in the order of R51. -/
def lineField (active : Bool) : List Byte := oneOfTwo active

/-- The value of the drive: on 0, off 1, in the order of the table of section 3.1. -/
def driveField (on : Bool) : List Byte := oneOfTwo on

/-- A text field: its character count, then the characters. -/
def textField (t : Text) : List Byte := u8 t.length ++ t

/-- An optional field: its presence mark, then the field if present. -/
def optField {α : Type} (f : α → List Byte) : Option α → List Byte
  | none => [0]
  | some x => 1 :: f x

/-- A list: its item count, then the items. -/
def listField {α : Type} (f : α → List Byte) (xs : List α) : List Byte := u8 xs.length ++ xs.flatMap f

/-- The number 1 to 8 of a lane. -/
def laneNumber (l : LaneNo) : Nat := l.ctorIdx + 1

/-- The lane of a number. -/
def laneOf (n : Nat) : Option LaneNo := if n = 0 then none else allLanes[n - 1]?

/-- A lane field. -/
def laneField (l : LaneNo) : List Byte := u8 (laneNumber l)

/-- A position field: FRONT 0, REAR 1. -/
def posField : Pos → List Byte
  | .front => [0]
  | .rear => [1]

/-- The code of a status (spec/11 section 11.2). -/
def statusCode (st : Status) : Byte := BitVec.ofNat 8 st.ctorIdx

/-! ### CRC-16: polynomial 0x1021, initial value 0xFFFF, most significant bit first, no final inversion -/

/-- One bit step of the CRC. -/
def crcBit (c : BitVec 16) : BitVec 16 := if c.msb then (c <<< 1) ^^^ 0x1021 else c <<< 1

/-- The CRC taken on by one byte. -/
def crcByte (c : BitVec 16) (b : Byte) : BitVec 16 :=
  crcBit (crcBit (crcBit (crcBit (crcBit (crcBit (crcBit (crcBit (c ^^^ (b.setWidth 16 <<< 8)))))))))

/-- The CRC-16 of a run of bytes. -/
def crc16 (bs : List Byte) : BitVec 16 := bs.foldl crcByte 0xFFFF

/-- The bytes the CRC covers: from the length through the body. -/
def framePayload (tag kind : Byte) (body : List Byte) : List Byte := u16 (2 + body.length) ++ tag :: kind :: body

/-- A frame of R168 as it crosses a line. -/
def encodeFrame (tag kind : Byte) (body : List Byte) : List Byte :=
  0xA5 :: framePayload tag kind body ++ u16 (crc16 (framePayload tag kind body)).toNat

/-- The bytes a frame takes in the receive buffer: marker, length, tag, kind, body, CRC. -/
def Frame.size (f : Frame) : Nat := 7 + f.body.length

/-! ### The receiver (R169) -/

/-- What the receiver makes of the bytes it has: the good frames in order, the frames discarded as bad, and the bytes of
a frame not yet whole (from its marker on; empty while hunting). -/
structure Scan where
  frames : List Frame
  bad : Nat
  rest : List Byte
deriving DecidableEq, Repr

/-- Hunt for a marker, test the length and the CRC; after a discarded frame hunt from the byte behind its marker. The
first argument bounds the work; the number of bytes is enough. -/
def scan : Nat → List Byte → Scan
  | 0, bs => ⟨[], 0, bs⟩
  | _ + 1, [] => ⟨[], 0, []⟩
  | n + 1, b :: bs =>
    if b ≠ 0xA5 then scan n bs
    else match bs with
      | lo :: hi :: rest =>
        let len := lo.toNat + 256 * hi.toNat
        if len < 2 ∨ len > 502 then
          let r := scan n bs
          { r with bad := r.bad + 1 }
        else if rest.length < len + 2 then ⟨[], 0, b :: bs⟩
        else
          match rest.take len with
          | tag :: kind :: body =>
            if (rest.drop len).take 2 = u16 (crc16 (framePayload tag kind body)).toNat then
              let r := scan n (rest.drop (len + 2))
              { r with frames := ⟨tag, kind, body⟩ :: r.frames }
            else
              let r := scan n bs
              { r with bad := r.bad + 1 }
          | _ => ⟨[], 0, []⟩
      | _ => ⟨[], 0, b :: bs⟩

/-- The receiver's work on all the bytes it has. -/
def receive (bs : List Byte) : Scan := scan bs.length bs

end Sys2Proof.Machine
end

