-- ==== Sys2Proof/Machine/Operands.lean ====
section
/-! DEFINITION. The operands of the requests: how each request body is read (R168, R170 test 3), with the fields in the
order in which the rule of the message lists them. A body that does not fit gives none, and the request is MALFORMED. -/

namespace Sys2Proof.Machine

/-- A reader takes its field from the front of the bytes and gives the rest. -/
abbrev Reader (α : Type) := List Byte → Option (α × List Byte)

/-- A one-byte number. -/
def readU8 : Reader Nat
  | b :: bs => some (b.toNat, bs)
  | [] => none

/-- A two-byte number. -/
def readU16 : Reader Nat
  | a :: b :: bs => some (a.toNat + 256 * b.toNat, bs)
  | _ => none

/-- A four-byte number. -/
def readU32 : Reader Nat
  | a :: b :: c :: d :: bs => some (a.toNat + 256 * b.toNat + 65536 * c.toNat + 16777216 * d.toNat, bs)
  | _ => none

/-- An enumerated value, numbered from 0 in the order of its list; a value beyond the list does not fit. -/
def readEnum {α : Type} (xs : List α) : Reader α
  | b :: bs => (xs[b.toNat]?).map (·, bs)
  | [] => none

/-- A text: a count that runs past the body does not fit. -/
def readText : Reader Text
  | n :: bs => if n.toNat ≤ bs.length then some (bs.take n.toNat, bs.drop n.toNat) else none
  | [] => none

/-- An optional field: a presence mark other than 0 or 1 does not fit. -/
def readOpt {α : Type} (p : Reader α) : Reader (Option α)
  | [] => none
  | m :: bs =>
    if m = 0 then some (none, bs)
    else if m = 1 then (p bs).map fun r => (some r.1, r.2)
    else none

/-- So many items. -/
def readMany {α : Type} (p : Reader α) : Nat → Reader (List α)
  | 0, bs => some ([], bs)
  | n + 1, bs => do
    let (x, bs) ← p bs
    let (xs, bs) ← readMany p n bs
    pure (x :: xs, bs)

/-- A list: its item count, then the items. -/
def readList {α : Type} (p : Reader α) : Reader (List α)
  | n :: bs => readMany p n.toNat bs
  | [] => none

/-- The whole body is read: bytes left over do not fit. -/
def readAll {α : Type} (p : Reader α) (body : List Byte) : Option α :=
  match p body with
  | some (x, []) => some x
  | _ => none

/-- A body without fields. -/
def readNothing : Reader Unit := fun bs => some ((), bs)

/-- Two fields. -/
def readPair {α β : Type} (p : Reader α) (q : Reader β) : Reader (α × β) := fun bs => do
  let (x, bs) ← p bs
  let (y, bs) ← q bs
  pure ((x, y), bs)

/-! ### Enumerations -/

def moveKinds : List MoveKind := [.deliverFull, .returnEmpty, .pickImport, .pickEmpty]
def lengthClasses : List LengthClass := [.l20, .l40, .l45]
/-- RELEASED 0, NOT_RELEASED 1 (spec/01 section 1.1). -/
def releaseStates : List Bool := [true, false]
def panels : List Panel := [.left, .right, .frontEnd, .doorEnd, .roof]
def defectTypes : List DefectType := [.dent, .bulge, .scrape, .tear, .hole]
def sealSources : List SealSource := [.reader, .clerk]
def holdKinds : List HoldKind := [.plate, .container]
def watchActions : List WatchAction := [.inspect, .hold]
/-- The eight lines of spec/03 section 3.1; the two outputs stand for no input. -/
def lines : List (Option Input) :=
  [some .arrival, some .stop, some .exit, some .upSense, some .downSense, some .call, none, none]
/-- ON 0, OFF 1, as R54 lists them. -/
def forceValues : List Bool := [true, false]
/-- PASS 0, FAIL 1, as R121 lists them. -/
def overrideValues : List Bool := [true, false]
/-- The outcomes of the table's resolution field; RESOLVE takes the first three (R162). -/
def resolutions : List Resolution := [.waive, .uphold, .turnAway, .cleared, .overridden, .discarded]
def responsesList : List Response := [.hold, .retry, .note, .silent]

/-- A position as a read names it (R168: FRONT 0, REAR 1, WHOLE 2, UNKNOWN 3). -/
inductive ReadPos where
  | front | rear | whole | unknown
deriving DecidableEq, Repr

def readPositions : List ReadPos := [.front, .rear, .whole, .unknown]

/-! ### Request bodies -/

/-- A move of a BOOK request, before any test. -/
structure MoveReq where
  kind : MoveKind
  length : LengthClass
  cid : Option Text
  seals : List Text
  known : Option Nat
  stop : Option (Text × Nat)
  released : Option Bool
deriving DecidableEq, Repr

def readMove : Reader MoveReq := fun bs => do
  let (kind, bs) ← readEnum moveKinds bs
  let (length, bs) ← readEnum lengthClasses bs
  let (cid, bs) ← readOpt readText bs
  let (seals, bs) ← readList readText bs
  let (known, bs) ← readOpt readU16 bs
  let (stop, bs) ← readOpt (readPair readText readU8) bs
  let (released, bs) ← readOpt (readEnum releaseStates) bs
  pure (⟨kind, length, cid, seals, known, stop, released⟩, bs)

/-- A BOOK request (section 1.2). -/
structure BookReq where
  number : Nat
  window : Nat
  plate : Option Text
  moves : List MoveReq
deriving DecidableEq, Repr

def readBook : Reader BookReq := fun bs => do
  let (number, bs) ← readU32 bs
  let (window, bs) ← readU8 bs
  let (plate, bs) ← readOpt readText bs
  let (moves, bs) ← readList readMove bs
  pure (⟨number, window, plate, moves⟩, bs)

/-- An AMEND request: each change of R9's list an optional field, in that order; a change of the plate to absent is its
removal; a change of a move begins with the move's place. -/
structure AmendReq where
  number : Nat
  window : Option Nat
  plate : Option (Option Text)
  stop : Option (Nat × Text × Nat)
  known : Option (Nat × Nat)
  seals : Option (Nat × List Text)
  release : Option (Nat × Bool)
deriving DecidableEq, Repr

def readAmend : Reader AmendReq := fun bs => do
  let (number, bs) ← readU32 bs
  let (window, bs) ← readOpt readU8 bs
  let (plate, bs) ← readOpt (readOpt readText) bs
  let (stop, bs) ← readOpt (readPair readU8 (readPair readText readU8)) bs
  let (known, bs) ← readOpt (readPair readU8 readU16) bs
  let (seals, bs) ← readOpt (readPair readU8 (readList readText)) bs
  let (release, bs) ← readOpt (readPair readU8 (readEnum releaseStates)) bs
  pure (⟨number, window, plate, stop, known, seals, release⟩, bs)

/-- A SET_CAPACITY request: first window, last window, value (R7). -/
structure CapacityReq where
  first : Nat
  last : Nat
  value : Nat
deriving DecidableEq, Repr

def readCapacity : Reader CapacityReq := fun bs => do
  let (first, bs) ← readU8 bs
  let (last, bs) ← readU8 bs
  let (value, bs) ← readU16 bs
  pure (⟨first, last, value⟩, bs)

/-- A SET_CLOCK request: day, minute, second (R15). -/
structure ClockReq where
  day : Nat
  minute : Nat
  second : Nat
deriving DecidableEq, Repr

def readClock : Reader ClockReq := fun bs => do
  let (day, bs) ← readU16 bs
  let (minute, bs) ← readU16 bs
  let (second, bs) ← readU8 bs
  pure (⟨day, minute, second⟩, bs)

/-- A LOOKUP_ANSWER request: lane, visit number, booking number or NONE (R33). -/
structure AnswerReq where
  lane : Nat
  visit : Nat
  number : Option Nat
deriving DecidableEq, Repr

def readAnswer : Reader AnswerReq := fun bs => do
  let (lane, bs) ← readU8 bs
  let (visit, bs) ← readU16 bs
  let (number, bs) ← readOpt readU32 bs
  pure (⟨lane, visit, number⟩, bs)

/-- An ID_READ request: lane, position, ID text (R69). -/
structure IdReq where
  lane : Nat
  pos : ReadPos
  text : Text
deriving DecidableEq, Repr

def readId : Reader IdReq := fun bs => do
  let (lane, bs) ← readU8 bs
  let (pos, bs) ← readEnum readPositions bs
  let (text, bs) ← readText bs
  pure (⟨lane, pos, text⟩, bs)

/-- A SEAL_READ request: lane, position, seal text, source (R87). -/
structure SealReq where
  lane : Nat
  pos : ReadPos
  text : Text
  source : SealSource
deriving DecidableEq, Repr

def readSeal : Reader SealReq := fun bs => do
  let (lane, bs) ← readU8 bs
  let (pos, bs) ← readEnum readPositions bs
  let (text, bs) ← readText bs
  let (source, bs) ← readEnum sealSources bs
  pure (⟨lane, pos, text, source⟩, bs)

/-- A SURVEY request: lane, position, defects (R100). -/
structure SurveyReq where
  lane : Nat
  pos : ReadPos
  defects : List Defect
deriving DecidableEq, Repr

def readDefect : Reader Defect := fun bs => do
  let (panel, bs) ← readEnum panels bs
  let (type, bs) ← readEnum defectTypes bs
  let (depth, bs) ← readU8 bs
  let (area, bs) ← readU16 bs
  pure (⟨panel, type, depth, area⟩, bs)

def readSurvey : Reader SurveyReq := fun bs => do
  let (lane, bs) ← readU8 bs
  let (pos, bs) ← readEnum readPositions bs
  let (defects, bs) ← readList readDefect bs
  pure (⟨lane, pos, defects⟩, bs)

/-- A HOLD_ADD request: kind, pattern, action, reason code (R81). -/
def readHoldAdd : Reader HoldEntry := fun bs => do
  let (kind, bs) ← readEnum holdKinds bs
  let (pattern, bs) ← readText bs
  let (action, bs) ← readEnum watchActions bs
  let (reason, bs) ← readU8 bs
  pure (⟨kind, pattern, action, reason⟩, bs)

/-- A HOLD_REMOVE request: kind, pattern (R82). -/
def readHoldRemove : Reader (HoldKind × Text) := readPair (readEnum holdKinds) readText

/-- A FORCE_LINE request: lane, line, value (R54). -/
def readForce : Reader (Nat × Option Input × Bool) :=
  readPair readU8 (readPair (readEnum lines) (readEnum forceValues))

/-- An UNFORCE_LINE request: lane, line (R55). -/
def readUnforce : Reader (Nat × Option Input) := readPair readU8 (readEnum lines)

/-- An OVERRIDE request: lane, check, value (R121). -/
def readOverride : Reader (Nat × CheckName × Bool) :=
  readPair readU8 (readPair (readEnum allChecks) (readEnum overrideValues))

/-- An UNOVERRIDE request: lane, check (R123). -/
def readUnoverride : Reader (Nat × CheckName) := readPair readU8 (readEnum allChecks)

/-- A RESOLVE request: entry number, outcome (R162). -/
def readResolve : Reader (Nat × Resolution) := readPair readU16 (readEnum resolutions)

/-- A SET request: setting number, index, value (R173). -/
structure SetReq where
  number : Nat
  index : Nat
  value : Nat
deriving DecidableEq, Repr

def readSet : Reader SetReq := fun bs => do
  let (number, bs) ← readU8 bs
  let (index, bs) ← readU8 bs
  let (value, bs) ← readU16 bs
  pure (⟨number, index, value⟩, bs)

/-! ### Text forms (spec/00 section 5.4) -/

/-- An upper-case letter A to Z. -/
def isLetter (b : Byte) : Bool := 65 ≤ b.toNat && b.toNat ≤ 90

/-- A digit 0 to 9. -/
def isDigit (b : Byte) : Bool := 48 ≤ b.toNat && b.toNat ≤ 57

/-- A character of the text alphabet. -/
def isAlnum (b : Byte) : Bool := isLetter b || isDigit b

/-- A text over the alphabet with its length in a range. -/
def textOk (lo hi : Nat) (t : Text) : Bool := lo ≤ t.length && t.length ≤ hi && t.all isAlnum

def plateOk (t : Text) : Bool := textOk 2 10 t
def sealOk (t : Text) : Bool := textOk 1 10 t
def blockOk (t : Text) : Bool := textOk 2 2 t
/-- A sign text: up to 24 characters, space allowed (R135). -/
def signTextOk (t : Text) : Bool := t.length ≤ 24 && t.all fun b => isAlnum b || b == 32

/-- The value of a character for the check digit (R70): a digit its own, a letter by the table, which leaves out the
multiples of 11. -/
def checkValue (b : Byte) : Nat :=
  if isDigit b then b.toNat - 48
  else
    let k := b.toNat - 65
    if k = 0 then 10 else if k ≤ 10 then k + 11 else if k ≤ 20 then k + 12 else k + 13

/-- The weighted sum of R70: character i by 2 to the power i. -/
def weightedSum : Nat → Text → Nat
  | _, [] => 0
  | w, b :: bs => checkValue b * w + weightedSum (2 * w) bs

/-- The check digit computed from the first ten characters (R70); a remainder of 10 is taken as 0. -/
def checkDigit (t : Text) : Nat :=
  let r := weightedSum 1 (t.take 10) % 11
  if r = 10 then 0 else r

/-- Four letters followed by seven digits. -/
def cidForm (t : Text) : Bool := t.length == 11 && (t.take 4).all isLetter && (t.drop 4).all isDigit

/-- A valid container ID: its form, and a check digit equal to character 10. -/
def cidOk (t : Text) : Bool := cidForm t && (t[10]?).map checkValue == some (checkDigit t)

/-- A character of a Hold List pattern: the alphabet, ? and *. -/
def isPatternChar (b : Byte) : Bool := isAlnum b || b == 63 || b == 42

/-- A well-formed pattern (R80, R81): 1 to 11 characters, a * only as the last. -/
def patternOk (t : Text) : Bool :=
  1 ≤ t.length && t.length ≤ 11 && t.all isPatternChar && t.dropLast.all fun b => b != 42

/-- A pattern matches a text (R80): a letter or digit itself, ? any one character, a final * the rest. -/
def patternMatches : Text → Text → Bool
  | [], [] => true
  | [], _ :: _ => false
  | p :: ps, ts =>
    if p = 42 ∧ ps = [] then true
    else match ts with
      | [] => false
      | t :: rest => (p == 63 || p == t) && patternMatches ps rest

end Sys2Proof.Machine
end

