-- ==== Sys2Proof/Machine/Ops.lean ====
section
/-! DEFINITION. The named operations over the state: lanes and visits, notices and replies, timers, the Booking Unit
(capacity, expiry, rollover, claim, release), and RAISING AN EXCEPTION with its reports, holds and the entry into
TROUBLE, each written once from the rules that describe it. -/

namespace Sys2Proof.Machine

/-! ### Access -/

/-- A counter of spec/11 section 11.7 raised by one, saturating (spec/00 section 5.6). -/
def satInc (n : Nat) : Nat := min Config.counterMax (n + 1)

/-- A counter raised by a number, saturating. -/
def satAdd (n k : Nat) : Nat := min Config.counterMax (n + k)

/-- A count of at most 255 raised by one, saturating. -/
def satInc8 (n : Nat) : Nat := min 255 (n + 1)

/-- The record of a lane. -/
def State.lane (s : State) (l : LaneNo) : Lane := s.lanes.get l

/-- The state with the record of a lane replaced. -/
def State.setLane (s : State) (l : LaneNo) (x : Lane) : State := { s with lanes := s.lanes.set l x }

/-- The state with the record of a lane changed. -/
def State.modLane (s : State) (l : LaneNo) (f : Lane → Lane) : State := s.setLane l (f (s.lane l))

/-- The visit a lane holds. -/
def State.visit (s : State) (l : LaneNo) : Option Visit := (s.lane l).visit

/-- A lane with its visit, if it holds one, changed. -/
def Lane.modVisit (x : Lane) (f : Visit → Visit) : Lane := { x with visit := x.visit.map f }

/-- The state with the visit of a lane, if it holds one, changed. -/
def State.modVisit (s : State) (l : LaneNo) (f : Visit → Visit) : State := s.modLane l fun x => x.modVisit f

/-- The state with a position record of a lane's visit changed. -/
def State.modPos (s : State) (l : LaneNo) (p : Pos) (f : PosRec → PosRec) : State :=
  s.modVisit l fun v => v.setPos p (f (v.pos p))

/-- The state with the counters of a lane changed. -/
def State.modCounters (s : State) (l : LaneNo) (f : LaneCounters → LaneCounters) : State :=
  s.modLane l fun x => { x with counters := f x.counters }

/-- The visit number a lane's visit has, 0 for no visit (spec/00 section 5.2). -/
def Lane.visitNumber (x : Lane) : Nat := (x.visit.map (·.number)).getD 0

/-- The lane holds the visit of a number. -/
def State.holdsVisit (s : State) (l : LaneNo) (n : Nat) : Bool := (s.visit l).any fun v => v.number == n

/-- The conditioned value of a line: the force if one stands, else the settled value (R51). -/
def LineRec.value (r : LineRec) : Bool := r.force.getD r.settled

/-- The conditioned value of an input of a lane. -/
def State.input (s : State) (l : LaneNo) (i : Input) : Bool := ((s.lane l).lines.get i).value

/-- ARRIVAL LOOP and STOP LOOP both clear. -/
def State.entryClear (s : State) (l : LaneNo) : Bool := !s.input l .arrival && !s.input l .stop

/-- BARRIER DRIVE follows the barrier state (R66). -/
def Barrier.drive (b : Barrier) : Bool := b.state == .raising || b.state == .up

/-! ### Notices and replies (R170, R172) -/

theorem NoticeKind.index_lt (k : NoticeKind) : k.ctorIdx < 12 := by cases k <;> decide

theorem ExcKind.index_lt (k : ExcKind) : k.ctorIdx < 21 := by cases k <;> decide

/-- The notice mask of a kind: on unless set off. -/
def Settings.mask (w : Settings) (k : NoticeKind) : Bool := w.masks[k.ctorIdx]'k.index_lt

/-- The notices waiting. -/
def Link.noticeCount (k : Link) : Nat := k.outbox.countP fun m => match m with | .notice _ => true | .reply _ => false

/-- A notice of the kind would be queued: not masked off, and the queue holds fewer than 32. -/
def State.noticeGoes (s : State) (k : NoticeKind) : Bool :=
  s.store.work.mask k && s.link.noticeCount < Config.noticeMax

/-- Queue a notice, or leave it out as masked, or drop and count it (R172). -/
def State.queueNotice (s : State) (n : Notice) : State :=
  if s.store.work.mask n.kind = false then s
  else if s.link.noticeCount < Config.noticeMax then
    { s with link := { s.link with outbox := s.link.outbox ++ [.notice n] } }
  else
    { s with link := { s.link with lostByte := satInc8 s.link.lostByte, noticesLost := satInc s.link.noticesLost } }

/-- The kind of the reply to a request kind (R170). -/
def replyKind (kind : Byte) : Byte := if kind.toNat < 128 then kind + 0x80 else 0xFF

/-- Form a reply; it leaves after everything made ready before it (R170). -/
def State.reply (s : State) (tag kind : Byte) (st : Status) (data : List Byte) : State :=
  { s with link := { s.link with outbox := s.link.outbox ++ [.reply ⟨tag, replyKind kind, st, data⟩] } }

/-- The causes of a LANE_STATE notice, in the order of R25. -/
inductive LaneCause where
  | laneOpened | laneClosed | visitOpened | lookupSent | matched | verdict | barrierUp | visitClosed | abandoned
  | reset | hold | holdEnded
deriving DecidableEq, Repr

/-- The LANE_STATE notice of a change (R25): lane, state left, state entered, visit number, the interrupted state when
TROUBLE is entered, cause. -/
def laneStateNotice (l : LaneNo) (was now : LaneState) (visit : Nat) (cause : LaneCause) : Notice :=
  ⟨.laneState, laneField l ++ u8 was.ctorIdx ++ u8 now.ctorIdx ++ u16 visit
    ++ optField (fun x : LaneState => u8 x.ctorIdx) (if now = .trouble then some was else none) ++ u8 cause.ctorIdx⟩

/-- A lane takes a state; a change queues its LANE_STATE notice (R25). -/
def State.changeLane (s : State) (l : LaneNo) (now : LaneState) (cause : LaneCause) : State :=
  if (s.lane l).state = now then s
  else
    (s.modLane l fun x => { x with state := now }).queueNotice
      (laneStateNotice l (s.lane l).state now (s.lane l).visitNumber cause)

/-- The causes of a GATE_STATE notice (R177). -/
inductive GateCause where
  | gateOpen | gateShut | lanesClosed
deriving DecidableEq, Repr

/-- The gate takes a mode, with its GATE_STATE notice (R177). -/
def State.changeGate (s : State) (now : GateMode) (cause : GateCause) : State :=
  { s with gate := now }.queueNotice ⟨.gateState, u8 s.gate.ctorIdx ++ u8 now.ctorIdx ++ u8 cause.ctorIdx⟩

/-! ### Windows and bookings (spec/01) -/

/-- The units of a move: 1 for L20, 2 for L40 and L45. -/
def Move.units (m : Move) : Nat := if m.length = .l20 then 1 else 2

/-- A bring-in move is DELIVER_FULL or RETURN_EMPTY. -/
def MoveKind.bringIn : MoveKind → Bool
  | .deliverFull | .returnEmpty => true
  | .pickImport | .pickEmpty => false

/-- The units of a booking: the sum over its moves. -/
def movesUnits (ms : List Move) : Nat := (ms.map Move.units).sum

/-- The over flag as R6 sets it after every change of capacity, booked or admitted units. -/
def Window.evalOver (w : Window) : Window := { w with overFlag := decide (w.capacity < w.booked + w.admitted) }

/-- The capacity test of R6. -/
def Window.takes (w : Window) (units : Nat) : Bool := !w.expired && w.booked + w.admitted + units ≤ w.capacity

/-- Free units: capacity less booked less admitted, or 0 (R4). -/
def Window.free (w : Window) : Nat := w.capacity - w.booked - w.admitted

/-- A window record by its number. -/
def BookUnit.window (b : BookUnit) (w : Nat) : Window := b.windows.getD w ⟨0, 0, 0, false, false⟩

/-- The windows with one changed and its over flag evaluated. -/
def BookUnit.modWindow (b : BookUnit) (w : Nat) (f : Window → Window) : BookUnit :=
  { b with windows := b.windows.modify w fun x => (f x).evalOver }

/-- Booked units of a window rise. -/
def BookUnit.addBooked (b : BookUnit) (w u : Nat) : BookUnit := b.modWindow w fun x => { x with booked := x.booked + u }

/-- Booked units of a window fall. -/
def BookUnit.subBooked (b : BookUnit) (w u : Nat) : BookUnit := b.modWindow w fun x => { x with booked := x.booked - u }

/-- A booking record by its number. -/
def BookUnit.find (b : BookUnit) (n : Nat) : Option Booking := b.table.find? fun k => k.number == n

/-- The table with the record of a number changed. -/
def BookUnit.modBooking (b : BookUnit) (n : Nat) (f : Booking → Booking) : BookUnit :=
  { b with table := b.table.map fun k => if k.number = n then f k else k }

/-- A number joins the tail of the finalisation order list (R1). -/
def BookUnit.finalise (b : BookUnit) (n : Nat) : BookUnit := { b with final := b.final ++ [n] }

/-- A number leaves the finalisation order list (R1). -/
def BookUnit.unfinalise (b : BookUnit) (n : Nat) : BookUnit := { b with final := b.final.filter (· ≠ n) }

/-- Reclaim of the record at the head of the finalisation order list (R5); none if the list is empty. -/
def BookUnit.reclaim (b : BookUnit) : Option BookUnit :=
  match b.final with
  | [] => none
  | n :: rest =>
    let b1 := { b with table := b.table.filter fun k => k.number ≠ n, final := rest }
    match b.find n with
    | some k =>
      if k.state = .admitted then some (b1.modWindow k.window fun x => { x with admitted := x.admitted - k.units })
      else some b1
    | none => some b1

/-- Insertion of a number into an ascending list. -/
def insertNat (n : Nat) : List Nat → List Nat
  | [] => [n]
  | m :: ms => if n ≤ m then n :: m :: ms else m :: insertNat n ms

/-- Numbers in ascending order. -/
def sortNats : List Nat → List Nat
  | [] => []
  | n :: ns => insertNat n (sortNats ns)

/-- The OPEN bookings of a window, in ascending number. -/
def BookUnit.openOf (b : BookUnit) (w : Nat) : List Nat :=
  sortNats ((b.table.filter fun k => k.state == .opened && k.window == w).map (·.number))

/-- Window w expires (R17): its OPEN bookings enter NO_SHOW and join the finalisation order list in ascending number,
their units leave the booked units, the expired flag is set and the over flag evaluated. -/
def BookUnit.expire (b : BookUnit) (w : Nat) : BookUnit :=
  let gone := b.table.filter fun k => k.state == .opened && k.window == w
  { table := b.table.map fun k => if k.state = .opened ∧ k.window = w then { k with state := .noShow } else k
    final := b.final ++ b.openOf w
    windows := b.windows.modify w fun x =>
      Window.evalOver { x with booked := x.booked - (gone.map (·.units)).sum, expired := true } }

/-- The expiry minute of window w (R17). -/
def expiryMinute (grace w : Nat) : Nat := 30 * w + 30 + grace

/-- One window expires with its WINDOW_EXPIRED notice: the window and the number of bookings. -/
def State.expireWindow (s : State) (w : Nat) : State :=
  { s with book := s.book.expire w }.queueNotice ⟨.windowExpired, u8 w ++ u16 (s.book.openOf w).length⟩

/-- The expiry test (R17) over windows 0 to 47 in order. An expiry minute of 1440 or more is never reached, the minute
of day being below 1440. -/
def State.expiryTest (s : State) : State :=
  (List.range Config.dayWindows).foldl
    (fun t w =>
      if (t.book.window w).expired = false ∧ expiryMinute t.store.work.lateGrace w ≤ t.clock.minute then t.expireWindow w
      else t) s

/-- Day rollover on the tables alone, steps 2 to 5 of R18, with the counts purged and carried. -/
def BookUnit.roll (b : BookUnit) (cap : Nat) : BookUnit × Nat × Nat :=
  let today := fun k : Booking => decide (k.window < Config.dayWindows)
  let purged := b.table.filter fun k => today k && k.state != .inLane
  let carried := b.table.filter fun k => today k && k.state == .inLane
  let kept := b.table.filter fun k => !(today k && k.state != .inLane)
  let units := (carried.map (·.units)).sum
  let first := b.windows.modify Config.dayWindows fun x => Window.evalOver { x with booked := x.booked + units }
  ({ table := kept.map fun k => { k with window := k.window - Config.dayWindows }
     final := b.final.filter fun n => !(purged.any fun k => k.number == n)
     windows := first.drop Config.dayWindows ++ List.replicate Config.dayWindows (.new cap) },
    purged.length, carried.length)

/-- Day rollover (R18): the remaining windows of today expire with their notices, the tables roll, ROLLOVER is queued
with the new day number, the number purged, and the number carried, at most one for each lane (R20) and so one byte
(R168). -/
def State.rollover (s : State) (day : Nat) : State :=
  let s1 := (List.range Config.dayWindows).foldl
    (fun t w => if (t.book.window w).expired = false then t.expireWindow w else t) s
  let r := s1.book.roll s1.store.work.defaultCapacity
  { s1 with book := r.1 }.queueNotice ⟨.rollover, u16 day ++ u16 r.2.1 ++ u8 r.2.2⟩

/-- The windows after RESTART (R19): new, and on a valid clock those of today past their expiry minute marked expired. -/
def rebuiltWindows (cap grace : Nat) (c : Clock) : List Window :=
  (List.range Config.windowCount).map fun w =>
    { Window.new cap with
      expired := c.valid && decide (w < Config.dayWindows) && decide (expiryMinute grace w ≤ c.minute) }

/-- The results of a claim (R20). -/
inductive ClaimResult where
  | claimed (c : Timeliness) (window : Nat) (moved : Bool)
  | notFound
  | inUse (lane : LaneNo) (visit : Nat)
  | final
  | lateFull (window : Nat)
deriving DecidableEq, Repr

/-- The settings a claim reads (R21, R23). -/
structure ClaimTerms where
  minute : Nat
  early : Nat
  grace : Nat
  pull : Bool
deriving DecidableEq, Repr

/-- The timeliness class of a claim on an OPEN booking (R21), s − E compared without going below 0. -/
def classOf (t : ClaimTerms) (window : Nat) : Timeliness :=
  let start := 30 * window
  if t.minute + t.early < start then .early
  else if t.minute < start + 30 then .onTime
  else if t.minute < start + 30 + t.grace then .grace
  else .late

/-- The record of a claimed booking. -/
def Booking.claimedBy (k : Booking) (l : LaneNo) (visit : Nat) : Booking :=
  { k with state := .inLane, claim := some (l, visit) }

/-- A LATE claim (R22) on an OPEN or NO_SHOW booking. -/
def BookUnit.lateClaim (b : BookUnit) (t : ClaimTerms) (k : Booking) (l : LaneNo) (visit : Nat) : BookUnit × ClaimResult :=
  let c := t.minute / 30
  if (b.window c).takes k.units then
    let b1 := if k.state = .opened then b.subBooked k.window k.units else b.unfinalise k.number
    ((b1.addBooked c k.units).modBooking k.number fun x => { x.claimedBy l visit with window := c, moved := true },
      .claimed .late c true)
  else (b, .lateFull c)

/-- A claim at the Booking Unit (R20 to R23). -/
def BookUnit.claim (b : BookUnit) (t : ClaimTerms) (n : Nat) (l : LaneNo) (visit : Nat) : BookUnit × ClaimResult :=
  match b.find n with
  | none => (b, .notFound)
  | some k =>
    match k.state with
    | .inLane => match k.claim with
      | some (hl, hv) => (b, .inUse hl hv)
      | none => (b, .final)
    | .cancelled | .admitted => (b, .final)
    | .noShow => b.lateClaim t k l visit
    | .opened =>
      match classOf t k.window with
      | .late => b.lateClaim t k l visit
      | .early =>
        let c := t.minute / 30
        if t.pull ∧ (b.window c).takes k.units then
          (((b.subBooked k.window k.units).addBooked c k.units).modBooking n fun x =>
            { x.claimedBy l visit with window := c, moved := true }, .claimed .onTime c true)
        else (b.modBooking n fun x => x.claimedBy l visit, .claimed .early k.window k.moved)
      | cls => (b.modBooking n fun x => x.claimedBy l visit, .claimed cls k.window k.moved)

/-- The outcomes of a release (R24). -/
inductive ReleaseOutcome where
  | exit
  | turned
deriving DecidableEq, Repr

/-- Release of a claimed booking (R24): `exit` for an ADMIT or INSPECT exit, `turned` for a TURN_AWAY exit, abandonment
or lane reset. -/
def BookUnit.release (b : BookUnit) (minute n : Nat) (o : ReleaseOutcome) : BookUnit :=
  match b.find n with
  | none => b
  | some k =>
    match o with
    | .exit =>
      ((b.modWindow k.window fun x => { x with booked := x.booked - k.units, admitted := x.admitted + k.units }).modBooking n
        fun x => { x with state := .admitted, claim := none, admittedMinute := some minute }).finalise n
    | .turned =>
      if (b.window k.window).expired then
        ((b.subBooked k.window k.units).modBooking n fun x => { x with state := .noShow, claim := none }).finalise n
      else (b.modWindow k.window id).modBooking n fun x => { x with state := .opened, claim := none }

/-- The terms of a claim taken now. -/
def State.claimTerms (s : State) : ClaimTerms :=
  ⟨s.clock.minute, s.store.work.earlyTolerance, s.store.work.lateGrace, s.store.work.pullForward⟩

/-- The booking a lane's visit has claimed. -/
def State.claimedBooking (s : State) (l : LaneNo) : Option Booking :=
  (s.visit l).bind fun v => v.claimed.bind s.book.find

/-- The moves of the claimed booking; none before the claim. -/
def State.claimedMoves (s : State) (l : LaneNo) : List Move := ((s.claimedBooking l).map (·.moves)).getD []

/-- The bring-in moves with their places 1 and 2. -/
def bringIns (ms : List Move) : List (Nat × Move) :=
  ((List.range ms.length).zip ms).filterMap fun x => if x.2.kind.bringIn then some (x.1 + 1, x.2) else none

/-- The move of a place. -/
def moveAt (ms : List Move) (place : Nat) : Option Move := if place = 0 then none else ms[place - 1]?

/-! ### The Exception Table (spec/10) -/

/-- The retrying kinds (section 10.2). -/
def ExcKind.retrying : ExcKind → Bool
  | .idUnreadable | .noBooking | .sealMissing | .surveyMissing | .barrierFault => true
  | _ => false

/-- The kinds whose response is fixed (section 10.2). -/
def ExcKind.fixed : ExcKind → Bool
  | .watchHit | .inspectionFull | .settingsRestored => true
  | _ => false

/-- The responses a kind allows (section 10.2); none for a kind whose response is fixed. -/
def ExcKind.allows (k : ExcKind) (r : Response) : Bool :=
  match k, r with
  | .idUnreadable, r | .noBooking, r | .sealMissing, r | .surveyMissing, r => r != .silent
  | .idConflict, r | .containerMismatch, r | .bookingInUse, r | .notReleased, r | .sealMismatch, r
  | .sealUnexpected, r | .damageSevere, r | .signStalled, r => r == .hold || r == .note
  | .plateMismatch, r | .windowEarly, r | .windowLateFull, r | .loopFault, r => r != .retry
  | .damageNoted, r => r == .note || r == .silent
  | .barrierFault, r => r == .hold || r == .retry
  | .watchHit, _ | .inspectionFull, _ | .settingsRestored, _ => false

/-- The check a kind belongs to (section 7.1), for the ID, SEAL and DAMAGE kinds the check of the position. -/
def checkOf (k : ExcKind) (p : Option Pos) : Option CheckName :=
  match k with
  | .noBooking | .bookingInUse => some .booking
  | .windowEarly | .windowLateFull => some .timeliness
  | .notReleased => some .release
  | .watchHit => some .watch
  | .containerMismatch | .idConflict | .idUnreadable => p.map fun q => match q with | .front => .idFront | .rear => .idRear
  | .sealMismatch | .sealUnexpected | .sealMissing =>
    p.map fun q => match q with | .front => .sealFront | .rear => .sealRear
  | .damageNoted | .damageSevere | .surveyMissing =>
    p.map fun q => match q with | .front => .damageFront | .rear => .damageRear
  | .plateMismatch | .inspectionFull | .barrierFault | .loopFault | .signStalled | .settingsRestored => none

/-- The response setting of a kind. -/
def Settings.response (w : Settings) (k : ExcKind) : Response := w.responses[k.ctorIdx]'k.index_lt

/-- The retry limit of a kind. -/
def Settings.limit (w : Settings) (k : ExcKind) : Nat := w.limits[k.ctorIdx]'k.index_lt

/-- The response of a raise, step 1 of R156; `act` is the action of a WATCH_HIT's Hold List entry. -/
def Settings.responseOf (w : Settings) (k : ExcKind) (act : WatchAction) : Response :=
  match k with
  | .watchHit => if act = .hold then .hold else .note
  | .inspectionFull => .hold
  | .settingsRestored => .note
  | _ => if w.response k = .retry ∧ w.limit k = 0 then .hold else w.response k

/-- An entry that stands OPEN under RETRY. -/
def Entry.retrying (e : Entry) : Bool := e.state == .opened && e.response == .retry

/-- An entry that holds its lane (R158). -/
def Entry.holds (e : Entry) (l : LaneNo) : Bool := e.state == .opened && e.response == .hold && e.lane == some l

/-- The lane has a hold (R158). -/
def State.held (s : State) (l : LaneNo) : Bool := (s.exc.entries.any fun e => e.holds l) || s.exc.unrecorded.get l

/-- The entry of a number. -/
def State.entry (s : State) (n : Nat) : Option Entry := s.exc.entries.find? fun e => e.number == n

/-- The table with the entry of a number changed. -/
def State.modEntry (s : State) (n : Nat) (f : Entry → Entry) : State :=
  { s with exc := { s.exc with entries := s.exc.entries.map fun e => if e.number = n then f e else e } }

/-- An entry made RESOLVED with an outcome; its retry timer stops. -/
def Entry.resolved (e : Entry) (o : Resolution) : Entry := { e with state := .resolved, outcome := some o, left := none }

/-- The bytes of an entry: every field of section 10.1, in its order. -/
def entryFields (e : Entry) : List Byte :=
  u16 e.number ++ u8 e.kind.ctorIdx ++ optField laneField e.lane ++ optField u16 e.visit ++ optField posField e.pos
    ++ u16 e.detail ++ u16 e.minute ++ u8 e.response.ctorIdx ++ u8 e.retries ++ u8 e.state.ctorIdx
    ++ optField (fun o : Resolution => u8 o.ctorIdx) e.outcome

/-- The EXCEPTION notice (R167); the cause is STORED 0 or ESCALATED 1. -/
def exceptionNotice (e : Entry) (escalated : Bool) : Notice := ⟨.exception, entryFields e ++ flag escalated⟩

/-- The AUTO_CLEARED notice (R167). -/
def autoClearedNotice (e : Entry) : Notice :=
  ⟨.autoCleared, u16 e.number ++ u8 e.kind.ctorIdx ++ optField laneField e.lane ++ optField u16 e.visit
    ++ optField posField e.pos⟩

/-- The retry timer of an entry of a lane as R159 starts it: it stands stopped while the lane is in TROUBLE. -/
def State.retryStart (s : State) (l : Option LaneNo) : Option Nat :=
  match l with
  | some l => if (s.lane l).state = .trouble then none else some s.store.work.retryInterval
  | none => some s.store.work.retryInterval

/-- The lane enters TROUBLE (R44, R45, R28): its state becomes the interrupted state, its lane timers stop and are
noted, an outstanding lookup ends, the lamp turns red, and the retry timers of its entries stand stopped (R159). -/
def State.enterTrouble (s : State) (l : LaneNo) : State :=
  let x := s.lane l
  if x.state = .closed ∨ x.state = .trouble then s
  else
    let noted : Noted := match x.visit with
      | some v => ⟨v.idSettle.isSome, v.sealWait.isSome, v.surveyWait.isSome⟩
      | none => ⟨false, false, false⟩
    let s1 := s.modLane l fun x =>
      { x with
        interrupted := some x.state
        noted := noted
        lamp := .red
        visit := x.visit.map fun v =>
          { v with
            matchState := if v.matchState = .looking then .waiting else v.matchState
            idSettle := none, lookup := none, abandon := none, sealWait := none, surveyWait := none } }
    let s2 := { s1 with exc := { s1.exc with
      entries := s1.exc.entries.map fun e : Entry => if e.lane = some l then { e with left := none } else e } }
    s2.changeLane l .trouble .hold

/-- The full table gives up the oldest RESOLVED entry, else the oldest LOGGED one (R157); none if every entry is OPEN. -/
def reclaimEntry (es : List Entry) : Option (List Entry) :=
  match es.find? (fun e => e.state == .resolved) with
  | some e => some (es.filter fun x => x.number ≠ e.number)
  | none =>
    match es.find? (fun e => e.state == .logged) with
    | some e => some (es.filter fun x => x.number ≠ e.number)
    | none => none

/-- The entries with room for one more, and whether one left (R154, R157); none if the exception is not stored. -/
def ExcTable.room (t : ExcTable) : Option (List Entry × Bool) :=
  if 65535 < t.next then none
  else if t.entries.length < Config.entryMax then some (t.entries, false)
  else (reclaimEntry t.entries).map fun es => (es, true)

/-- What the Exception Table answers the raising block (R156). -/
inductive Answer where
  | logged | openRetry | openHold | overridden
  | notStored (r : Response)
  | silent
deriving DecidableEq, Repr

/-- The answer is one a block treats as NOTE (R156). -/
def Answer.asNote : Answer → Bool
  | .logged | .overridden | .silent => true
  | _ => false

/-- A raise: the kind, the lane, the visit, the position, the detail value, and a WATCH_HIT's action. -/
structure Raise where
  kind : ExcKind
  lane : Option LaneNo
  visit : Option Nat
  pos : Option Pos
  detail : Nat
  action : WatchAction
deriving DecidableEq, Repr

/-- The raise is of a kind that belongs to a check of the named visit with an override (R156 step 3). -/
def State.raiseOverridden (s : State) (r : Raise) : Bool :=
  match r.lane, r.visit, checkOf r.kind r.pos with
  | some l, some n, some c => (s.visit l).any fun v => v.number == n && (v.checks.get c).override.isSome
  | _, _, _ => false

/-- The entry a raise would store. -/
def State.newEntry (s : State) (r : Raise) (resp : Response) (ovr : Bool) : Entry :=
  { number := s.exc.next, kind := r.kind, lane := r.lane, visit := r.visit, pos := r.pos, detail := r.detail
    minute := s.clock.minute, response := resp, retries := 0
    state := if ovr then .resolved else if resp = .note then .logged else .opened
    outcome := if ovr then some .overridden else none
    left := if !ovr && resp == .retry then s.retryStart r.lane else none
    called := false }

/-- The exception is lost (R157): counted, the full flag set, and its lane held where R157 says so. -/
def State.loseException (s : State) (r : Raise) (resp : Response) (ovr : Bool) : State :=
  let s1 := { s with exc := { s.exc with lost := satInc s.exc.lost, full := true } }
  match r.lane with
  | some l =>
    if ovr = false ∧ (resp = .hold ∨ resp = .retry ∧ r.kind = .barrierFault) then
      { s1 with exc := { s1.exc with unrecorded := s1.exc.unrecorded.set l true } }.enterTrouble l
    else s1
  | none => s1

/-- RAISING AN EXCEPTION (R156, R157): response, SILENT, an overridden check, storing with its EXCEPTION notice, and the
hold it begins. -/
def State.raiseExc (s : State) (r : Raise) : State × Answer :=
  let resp := s.store.work.responseOf r.kind r.action
  if resp = .silent then (s, .silent)
  else
    let ovr := s.raiseOverridden r
    match s.exc.room with
    | none => (s.loseException r resp ovr, .notStored resp)
    | some (es, left) =>
      let e := s.newEntry r resp ovr
      let s1 := { s with exc := { s.exc with
        entries := es ++ [e], next := s.exc.next + 1, full := if left then false else s.exc.full } }
      let s2 := s1.queueNotice (exceptionNotice e false)
      if ovr then (s2, .overridden)
      else match resp with
        | .note | .silent => (s2, .logged)
        | .retry => (s2, .openRetry)
        | .hold => (match r.lane with | some l => s2.enterTrouble l | none => s2, .openHold)

/-- A raise for a lane's visit at a position. -/
def State.raiseVisit (s : State) (k : ExcKind) (l : LaneNo) (p : Option Pos) (detail : Nat) : State × Answer :=
  s.raiseExc ⟨k, some l, (s.visit l).map (·.number), p, detail, .inspect⟩

/-- A report of the condition cleared (R160); it acts on an entry OPEN under RETRY alone. -/
def State.reportCleared (s : State) (n : Nat) : State :=
  match s.entry n with
  | some e => if e.retrying then (s.modEntry n fun x => x.resolved .cleared).queueNotice (autoClearedNotice e) else s
  | none => s

/-- What a report of a failure came to. -/
inductive FailResult where
  | escalated | retrying | nothing
deriving DecidableEq, Repr

/-- A report of a failure (R160): the count rises; at the kind's retry limit the entry is escalated in place and holds
its lane, below it the retry timer starts again. -/
def State.reportFailure (s : State) (n : Nat) : State × FailResult :=
  match s.entry n with
  | some e =>
    if e.retrying then
      let count := min 7 (e.retries + 1)
      if s.store.work.limit e.kind ≤ count then
        let e1 := { e with retries := count, response := .hold, left := none }
        let s1 := (s.modEntry n fun _ => e1).queueNotice (exceptionNotice e1 true)
        (match e.lane with | some l => s1.enterTrouble l | none => s1, .escalated)
      else (s.modEntry n fun x => { x with retries := count, left := s.retryStart e.lane }, .retrying)
    else (s, .nothing)
  | none => (s, .nothing)

/-- The number of the entry of a kind OPEN under RETRY for a lane's present visit and a position. -/
def State.retryEntry (s : State) (k : ExcKind) (l : LaneNo) (p : Option Pos) : Option Nat :=
  (s.exc.entries.find? fun e =>
    e.retrying && e.kind == k && e.lane == some l && e.visit == (s.visit l).map (·.number) && e.pos == p).map (·.number)

/-- Report the condition of such an entry cleared, if there is one. -/
def State.clearRetry (s : State) (k : ExcKind) (l : LaneNo) (p : Option Pos) : State :=
  match s.retryEntry k l p with
  | some n => s.reportCleared n
  | none => s

/-- The number of the lane's OPEN BARRIER_FAULT entry. -/
def State.barrierEntry (s : State) (l : LaneNo) : Option Nat :=
  (s.exc.entries.find? fun e => e.state == .opened && e.kind == .barrierFault && e.lane == some l).map (·.number)

/-- The REREAD notice (R77, R96, R111): subject (ID 0, SEAL 1, SURVEY 2), lane, visit number, position, and what the
subject adds. -/
def State.reread (s : State) (subject : Nat) (l : LaneNo) (p : Pos) (more : List Byte) : State :=
  s.queueNotice ⟨.reread, u8 subject ++ laneField l ++ u16 (s.lane l).visitNumber ++ posField p ++ more⟩

end Sys2Proof.Machine
end

