-- ==== Sys2Proof/Machine/Flags.lean ====
section
/-! DEFINITION. The flags of a visit: how a check record takes an outcome and what it stands at (R115, R116, R122), what
each check is evaluated to (R118 to R120), the seal outcome (R91), the damage arithmetic (R103 to R106), the moves of the
positions (R89), and the decision of the verdict (R124, R126). -/

namespace Sys2Proof.Machine

/-! ### Check records -/

/-- An evaluation of a check gives an outcome (R116, R122): without override the outcome field takes it and a change sets
the changed mark; under an override an outcome other than the one held counts as ignored and clears the changed mark. -/
def Check.take (c : Check) (o : Outcome) : Check :=
  match c.override with
  | none => if c.outcome = o then c else { c with outcome := o, changed := true }
  | some _ => if c.outcome = o then c else { c with ignored := satInc8 c.ignored, changed := false }

/-- The check is one of the two DAMAGE checks. -/
def CheckName.damage : CheckName → Bool
  | .damageFront | .damageRear => true
  | _ => false

/-- The value a check stands at (R115). -/
def Check.value (n : CheckName) (c : Check) : Outcome :=
  match c.override with
  | some true => .pass
  | some false => if n.damage then .severe else .fail
  | none => c.outcome

/-- The value one of the visit's checks stands at. -/
def Checks.value (c : Checks) (n : CheckName) : Outcome := (c.get n).value n

/-- A kind is among the check's waivers. -/
def Check.waives (c : Check) (k : ExcKind) : Bool := c.waivers.contains (.kind k)

/-- The ID check of a position. -/
def idCheck : Pos → CheckName
  | .front => .idFront
  | .rear => .idRear

/-- The SEAL check of a position. -/
def sealCheck : Pos → CheckName
  | .front => .sealFront
  | .rear => .sealRear

/-- The DAMAGE check of a position. -/
def damageCheck : Pos → CheckName
  | .front => .damageFront
  | .rear => .damageRear

/-- The two positions, FRONT first. -/
def bothPos : List Pos := [.front, .rear]

/-- The other position. -/
def Pos.other : Pos → Pos
  | .front => .rear
  | .rear => .front

/-! ### What the checks are evaluated to -/

/-- A failing outcome, or PASS if its kind is waived (R120). -/
def failing (c : Check) (k : ExcKind) (o : Outcome) : Outcome := if c.waives k then .pass else o

/-- The outcome a SEAL check takes from its part (R86, R120). -/
def sealEval (c : Check) (p : SealPart) : Outcome :=
  match p.outcome with
  | .pending => .pending
  | .ok | .notApplicable => .pass
  | .mismatch => failing c .sealMismatch .sealMismatch
  | .unexpected => failing c .sealUnexpected .sealUnexpected
  | .missing => failing c .sealMissing .sealMissing

/-- The outcome a DAMAGE check takes from its part (R99, R111, R120). DESIGN CHOICE, unsafe (log 25): NOTED is no failing outcome, and a
waiver of DAMAGE_NOTED leaves the check at NOTED. -/
def damageEval (c : Check) (p : DamagePart) : Outcome :=
  match p.outcome with
  | .pending => .pending
  | .clean => .clean
  | .noted => .noted
  | .severe => failing c .damageSevere .severe
  | .unsurveyed => if p.effectInspect then failing c .surveyMissing .surveyMissing else .pass
  | .notApplicable => .pass

/-- The ID check before the claim (R118). -/
def idEvalOpen (c : Check) (r : PosRec) : Outcome :=
  if r.conflict ∧ c.waives .idConflict = false then .idConflict
  else if r.unreadable ∧ r.cid = none ∧ c.waives .idUnreadable = false then .idUnreadable
  else .pending

/-- The position holds the container ID of a bring-in move. -/
def holdsBringIn (ms : List Move) (r : PosRec) : Bool :=
  r.cid.any fun t => (bringIns ms).any fun m => m.2.cid == some t

/-- The position has a bring-in move whose container ID it does not hold. -/
def PosRec.lacksBox (r : PosRec) : Bool := r.sealPart.move.any fun m => m.2 == .expected

/-- The ID check after the claim (R118, R120). -/
def idEvalClaimed (c : Check) (ms : List Move) (r : PosRec) : Outcome :=
  if r.mismatch ∧ c.waives .containerMismatch = false then .containerMismatch
  else if r.conflict ∧ c.waives .idConflict = false then .idConflict
  else if r.unreadable ∧ r.lacksBox ∧ c.waives .idUnreadable = false then .idUnreadable
  else if holdsBringIn ms r ∨ r.sealPart.move = none then .pass
  else if r.unreadable ∧ c.waives .idUnreadable then .pass
  else .pending

/-- The ID check of a position. -/
def idEval (c : Check) (claimed : Bool) (ms : List Move) (r : PosRec) : Outcome :=
  if claimed then idEvalClaimed c ms r else idEvalOpen c r

/-- An identity is among the waivers of WATCH. -/
def Check.waivesId (c : Check) (i : Identity) : Bool := c.waivers.contains (.identity i)

/-- A watch mark with action INSPECT. -/
def inspects (m : Option Watch) : Bool := m.any fun x => x.action == .inspect

/-- An identity of the visit holds an INSPECT mark that is not waived; a spanning box is the one identity FRONT, waived
under either position. -/
def watchFails (c : Check) (v : Visit) : Bool :=
  (inspects v.plateWatch && !c.waivesId .plate)
    || (if v.front.spanning then
          inspects v.front.watch && !(c.waivesId .front || c.waivesId .rear)
        else (inspects v.front.watch && !c.waivesId .front) || (inspects v.rear.watch && !c.waivesId .rear))

/-- WATCH (R119); `attempt` says that the evaluation is made at, or after, an attempt to form the verdict. -/
def watchEval (c : Check) (v : Visit) (attempt : Bool) : Outcome :=
  if watchFails c v then .watchHit else if attempt then .pass else .pending

/-- The place of the first PICK_IMPORT move that is not released (R119). -/
def firstUnreleased (ms : List Move) : Option Nat :=
  (((List.range ms.length).zip ms).find? fun x => x.2.kind == .pickImport && !x.2.released).map (·.1 + 1)

/-- RELEASE (R119, R120). -/
def releaseEval (c : Check) (ms : List Move) : Outcome :=
  if (firstUnreleased ms).isSome then failing c .notReleased .notReleased else .pass

/-- BOOKING or TIMELINESS from the last of its events in the visit (R117). -/
def searchEval (c : Check) (last : Outcome) (k : ExcKind) (claimed : Bool) : Outcome :=
  if c.waives k then (if claimed then .pass else .pending) else last

/-- BOOKING from its last event. -/
def bookingEval (c : Check) (v : Visit) : Outcome :=
  match v.lastBooking with
  | .noBooking => searchEval c .noBooking .noBooking v.claimed.isSome
  | .bookingInUse => searchEval c .bookingInUse .bookingInUse v.claimed.isSome
  | o => o

/-- TIMELINESS from its last event. -/
def timelinessEval (c : Check) (v : Visit) : Outcome :=
  match v.lastTimeliness with
  | .windowEarly => searchEval c .windowEarly .windowEarly v.claimed.isSome
  | .windowLateFull => searchEval c .windowLateFull .windowLateFull v.claimed.isSome
  | o => o

/-! ### The moves of the positions (R89) -/

/-- The bring-in move, by place, whose container ID a text is. -/
def placeOfCid (ms : List Move) (t : Text) : Option Nat :=
  ((bringIns ms).find? fun m => m.2.cid == some t).map (·.1)

/-- The places of the bring-in moves whose IDs are recorded in neither position, in booking order. -/
def missingPlaces (ms : List Move) (front rear : Option Text) : List Nat :=
  ((bringIns ms).filter fun m => !(m.2.cid == front && front.isSome) && !(m.2.cid == rear && rear.isSome)).map (·.1)

/-- The move of each position, with its basis (R89). -/
def seatMoves (ms : List Move) (front rear : PosRec) : Option (Nat × Basis) × Option (Nat × Basis) :=
  let miss := missingPlaces ms front.cid rear.cid
  let forFront := front.cid.isNone
  let f := match front.cid with
    | some t => (placeOfCid ms t).map fun n => (n, Basis.recorded)
    | none => miss.head?.map fun n => (n, Basis.expected)
  let r := match rear.cid with
    | some t => if rear.spanning then none else (placeOfCid ms t).map fun n => (n, Basis.recorded)
    | none => (if forFront then miss.tail.head? else miss.head?).map fun n => (n, Basis.expected)
  (f, r)

/-! ### Seals (R91) -/

/-- The declared seals not among the seen seals, in the order of the declared list. -/
def missingSeals (declared : List Text) (seen : List SeenSeal) : List Text :=
  declared.filter fun t => !(seen.any fun s => s.text == t)

/-- The seen seals not among the declared seals. -/
def extraSeals (declared : List Text) (seen : List SeenSeal) : List SeenSeal :=
  seen.filter fun s => !(declared.contains s.text)

/-- The seal outcome is final (R91). -/
def SealPart.final (p : SealPart) : Bool := p.outcome == .ok || p.outcome == .notApplicable || p.phase == .closed

/-- The seal outcome by the table of R91, of a part in a phase. -/
def sealOutcome (m : Move) (seen : List SeenSeal) (phase : Phase) : SealOutcome :=
  match m.kind with
  | .deliverFull =>
    if extraSeals m.seals seen ≠ [] then .mismatch
    else if missingSeals m.seals seen = [] then .ok
    else if phase = .closed then .missing else .pending
  | _ => if seen ≠ [] then .unexpected else if phase = .closed then .ok else .pending

/-! ### Damage (R103 to R106) -/

/-- The settings and the baseline an evaluation reads (R102). -/
structure GradeTerms where
  minDepth : Nat
  weights : PerPanel Nat
  note : Nat
  severe : Nat
  known : Nat
deriving DecidableEq, Repr

/-- An area as R101 clamps it. -/
def clampArea (a : Nat) : Nat := if a = 0 then 1 else min 4095 a

/-- Stage 1: the defects that survive the filter (R103). -/
def survivors (minDepth : Nat) (ds : List Defect) : List Defect := ds.filter fun d => decide (minDepth ≤ d.depth)

/-- The weight of a defect type (R104). -/
def typeWeight : DefectType → Nat
  | .scrape => 1
  | .dent | .bulge => 2
  | .tear => 5
  | .hole => 8

/-- Stage 2: the points of a defect (R104). -/
def defectPoints (d : Defect) : Nat := min 300 (d.depth * typeWeight d.type * (d.area + 64) / 1024)

/-- Stage 3: the sum of a panel (R105). -/
def panelSum (ds : List Defect) (p : Panel) : Nat :=
  min 500 (((ds.filter fun d => d.panel == p).map defectPoints).sum)

/-- Stage 3: the five sums. -/
def panelSums (ds : List Defect) : PerPanel Nat :=
  ⟨panelSum ds .left, panelSum ds .right, panelSum ds .frontEnd, panelSum ds .doorEnd, panelSum ds .roof⟩

/-- Stage 4: the damage index (R105). -/
def damageIndex (w s : PerPanel Nat) : Nat :=
  min 1000 ((s.left * w.left + s.right * w.right + s.frontEnd * w.frontEnd + s.doorEnd * w.doorEnd + s.roof * w.roof) / 8)

/-- The breach rule (R106): a HOLE on DOOR_END or ROOF among the survivors. -/
def breaches (ds : List Defect) : Bool := ds.any fun d => d.type == .hole && (d.panel == .doorEnd || d.panel == .roof)

/-- Stage 5: the grade (R106). -/
def gradeOf (t : GradeTerms) (excess : Nat) (breach : Bool) : DamageOutcome :=
  if breach then .severe
  else if excess < t.note then .clean
  else if excess < t.severe then .noted
  else .severe

/-- The part after an evaluation of a survey (R102): the survey becomes the graded survey and every result is drawn from
it. -/
def DamagePart.grade (p : DamagePart) (t : GradeTerms) (sv : Survey) : DamagePart :=
  let ds := survivors t.minDepth sv.defects
  let sums := panelSums ds
  let index := damageIndex t.weights sums
  let excess := index - t.known
  { p with
    held := none
    graded := some sv
    knownUsed := t.known
    sums := sums
    index := index
    excess := excess
    breach := breaches ds
    survived := ds.length
    outcome := gradeOf t excess (breaches ds) }

/-- The damage part is final for the verdict (R102, R110, R124). -/
def DamagePart.final (p : DamagePart) : Bool := p.graded.isSome || p.phase == .closed

/-! ### The verdict (R124, R126) -/

/-- A failing outcome of a check, or FAIL: the values that R126 counts against BOOKING, TIMELINESS, RELEASE and the SEAL
checks. -/
def Outcome.fails : Outcome → Bool
  | .pending | .pass | .clean | .noted => false
  | _ => true

/-- The deciding reason of a TURN_AWAY (R126), the first that holds. -/
def turnAwayReason (v : Visit) : Option Reason :=
  let at' := fun n => v.checks.value n
  if v.turnAwayMark then some .forced
  else if (at' .booking).fails then some (.check .booking (at' .booking))
  else if (at' .timeliness).fails then some (.check .timeliness (at' .timeliness))
  else if v.matchState ≠ .claimed then some .noClaim
  else if (at' .release).fails then some (.check .release (at' .release))
  else if at' .idFront = .containerMismatch then some (.check .idFront (at' .idFront))
  else if at' .idRear = .containerMismatch then some (.check .idRear (at' .idRear))
  else none

/-- A check meets a condition of step 2 of R126. -/
def inspectMeets (n : CheckName) (o : Outcome) : Bool :=
  match n with
  | .idFront | .idRear => o == .idConflict || o == .idUnreadable || o == .fail
  | .sealFront | .sealRear => o.fails
  | .damageFront | .damageRear => o == .severe || o == .surveyMissing
  | .watch => o == .watchHit || o == .fail
  | .booking | .timeliness | .release => false

/-- The checks in the order in which R126 takes the reason of an INSPECT. -/
def inspectOrder : List CheckName :=
  [.idFront, .idRear, .sealFront, .sealRear, .damageFront, .damageRear, .watch]

/-- The deciding reason of an INSPECT (R126). -/
def inspectReason (v : Visit) : Option Reason :=
  (inspectOrder.find? fun n => inspectMeets n (v.checks.value n)).map fun n => .check n (v.checks.value n)

/-- The verdict and its deciding reason (R126). -/
def decideVerdict (v : Visit) : Verdict × Option Reason :=
  match turnAwayReason v with
  | some r => (.turnAway, some r)
  | none => match inspectReason v with
    | some r => (.inspect, some r)
    | none => (.admitIn, none)

/-- The first three conditions of R124. -/
def checksSettled (v : Visit) : Bool :=
  bothPos.all fun p =>
    ((v.checks.get (sealCheck p)).override.isSome || (v.pos p).sealPart.final)
      && ((v.checks.get (damageCheck p)).override.isSome || (v.pos p).damage.final)
      && ((v.checks.get (idCheck p)).override.isSome || (v.checks.get (idCheck p)).outcome != .pending)

end Sys2Proof.Machine
end

