-- ==== Sys2Proof/Machine/Checks.lean ====
section
/-! DEFINITION. Evaluating the checks of a lane's visit (R117 to R119, R122), the events of its search (R117), the watch
test (R83), and the states in which a lane takes reads and overrides (R38, R121). -/

namespace Sys2Proof.Machine

/-- What a check is evaluated to from the data held. `attempt` says that WATCH is evaluated at an attempt to form the
verdict, or after one (R119, R123). -/
def outcomeNow (v : Visit) (ms : List Move) (n : CheckName) (attempt : Bool) : Outcome :=
  let c := v.checks.get n
  match n with
  | .booking => bookingEval c v
  | .timeliness => timelinessEval c v
  | .release => if v.attempted ∧ v.claimed.isSome then releaseEval c ms else .pending
  | .watch => watchEval c v attempt
  | .idFront => idEval c v.claimed.isSome ms v.front
  | .idRear => idEval c v.claimed.isSome ms v.rear
  | .sealFront => sealEval c v.front.sealPart
  | .sealRear => sealEval c v.rear.sealPart
  | .damageFront => damageEval c v.front.damage
  | .damageRear => damageEval c v.rear.damage

/-- A check of the visit is evaluated; once the verdict is formed no check is evaluated (R128). -/
def Visit.evaluate (v : Visit) (ms : List Move) (n : CheckName) (attempt : Bool) : Visit :=
  if v.verdict.isSome then v
  else { v with checks := v.checks.set n ((v.checks.get n).take (outcomeNow v ms n attempt)) }

/-- A check of a lane's visit is evaluated. -/
def State.evaluate (s : State) (l : LaneNo) (n : CheckName) (attempt : Bool := false) : State :=
  s.modVisit l fun v => v.evaluate (s.claimedMoves l) n attempt

/-- Both ID checks are evaluated (R118). -/
def State.evaluateIds (s : State) (l : LaneNo) : State := (s.evaluate l .idFront).evaluate l .idRear

/-- An event of the search gives BOOKING an outcome (R117). -/
def State.bookingEvent (s : State) (l : LaneNo) (o : Outcome) : State :=
  (s.modVisit l fun v => { v with lastBooking := o }).evaluate l .booking

/-- An event of the search gives TIMELINESS an outcome (R117). -/
def State.timelinessEvent (s : State) (l : LaneNo) (o : Outcome) : State :=
  (s.modVisit l fun v => { v with lastTimeliness := o }).evaluate l .timeliness

/-! ### The watch test (R83) -/

/-- The position an identity names; none for the plate. -/
def Identity.pos : Identity → Option Pos
  | .plate => none
  | .front => some .front
  | .rear => some .rear

/-- The kind of Hold List entry that an identity is compared with. -/
def Identity.kind : Identity → HoldKind
  | .plate => .plate
  | .front | .rear => .container

/-- The text of an identity of a visit, if it is recorded. A spanning box is the identity FRONT alone. -/
def Visit.identity (v : Visit) : Identity → Option Text
  | .plate => v.plate
  | .front => v.front.cid
  | .rear => if v.rear.spanning then none else v.rear.cid

/-- The watch mark of an identity. -/
def Visit.watchMark (v : Visit) : Identity → Option Watch
  | .plate => v.plateWatch
  | .front => v.front.watch
  | .rear => v.rear.watch

/-- The visit with the watch mark of an identity set; for a spanning box both positions take it. -/
def Visit.setWatch (v : Visit) (i : Identity) (m : Watch) : Visit :=
  match i with
  | .plate => { v with plateWatch := some m }
  | .front =>
    if v.front.spanning then
      { v with front := { v.front with watch := some m }, rear := { v.rear with watch := some m } }
    else { v with front := { v.front with watch := some m } }
  | .rear => { v with rear := { v.rear with watch := some m } }

/-- The first entry of the Hold List that matches a text. -/
def matchHold (hs : List HoldEntry) (k : HoldKind) (t : Text) : Option HoldEntry :=
  hs.find? fun h => h.kind == k && patternMatches h.pattern t

/-- The watch test of one identity of a lane's visit (R83): a hit raises WATCH_HIT and sets the mark, and
WATCH is evaluated. DESIGN CHOICE, unsafe (log 25): this evaluation is none made at an attempt, also where step 1 of an attempt (R125)
runs the test, so a mark with HOLD leaves WATCH at PENDING until step 5 evaluates it again. -/
def State.watchTest (s : State) (l : LaneNo) (i : Identity) : State :=
  match s.visit l with
  | none => s
  | some v =>
    match v.identity i, v.watchMark i with
    | some t, none =>
      match matchHold s.holds i.kind t with
      | none => s
      | some h =>
        let s1 := (s.raiseExc ⟨.watchHit, some l, some v.number, i.pos, h.reason, h.action⟩).1
        (s1.modVisit l fun v => v.setWatch i ⟨h.action, h.reason⟩).evaluate l .watch
    | _, _ => s

/-! ### States of a lane -/

/-- A state in which a visit gathers reads and has no verdict. -/
def LaneState.gathers : LaneState → Bool
  | .arriving | .awaitingHost | .checking => true
  | _ => false

/-- The state a lane is in, or the one its TROUBLE interrupted. -/
def Lane.under (x : Lane) : LaneState :=
  match x.state with
  | .trouble => x.interrupted.getD .trouble
  | st => st

/-- The lane takes reads (R38): it holds a visit in, or interrupted in, ARRIVING, AWAITING_HOST or CHECKING. -/
def Lane.takesReads (x : Lane) : Bool := x.under.gathers && x.visit.isSome

end Sys2Proof.Machine
end

