-- ==== Sys2Proof/Machine/Barrier.lean ====
section
/-! DEFINITION. The barrier machine (R58 to R65), the end of a visit and of a lane's service (R26, R27, R43, R48, R161),
and the lane's acts on the barrier's reports (R42, R43). -/

namespace Sys2Proof.Machine

/-! ### Motions -/

/-- What the barrier machine reports to its lane. -/
inductive Arrival where
  | up
  | down
deriving DecidableEq, Repr

/-- The barrier of a lane changed. -/
def State.modBarrier (s : State) (l : LaneNo) (f : Barrier → Barrier) : State :=
  s.modLane l fun x => { x with barrier := f x.barrier }

/-- The barrier of a lane. -/
def State.barrier (s : State) (l : LaneNo) : Barrier := (s.lane l).barrier

/-- An arrival at UP or DOWN: the timer stops, and an attempt under a standing entry reports the condition cleared
(R61, R64). DESIGN CHOICE, unsafe (log 36): while the fault entry mark is set every motion counts as such an attempt, a safety
reversal and a raise that the lane commands during one as well. -/
def State.arriveAt (s : State) (l : LaneNo) (a : Arrival) : State × Option Arrival :=
  let st : BarrierState := match a with | .up => .up | .down => .down
  let s1 := s.modBarrier l fun b => { b with state := st, pending := none, left := none }
  let s2 :=
    if (s.barrier l).faultMark then
      (match s1.barrierEntry l with | some n => s1.reportCleared n | none => s1).modBarrier l fun b =>
        { b with faultMark := false }
    else s1
  (s2, some a)

/-- Entry to RAISING (R59): the raise timer starts, and an active BARRIER UP SENSE ends the motion at once. -/
def State.enterRaising (s : State) (l : LaneNo) : State × Option Arrival :=
  let s1 := s.modBarrier l fun b => { b with state := .raising, pending := none, left := some s.store.work.raiseTime }
  if s.input l .upSense then s1.arriveAt l .up else (s1, none)

/-- Entry to LOWERING (R60): the lower timer starts, and an active BARRIER DOWN SENSE ends the motion at once. -/
def State.enterLowering (s : State) (l : LaneNo) : State × Option Arrival :=
  let s1 := s.modBarrier l fun b =>
    { b with state := .lowering, pending := none, exitHold := false, left := some s.store.work.lowerTime }
  if s.input l .downSense then s1.arriveAt l .down else (s1, none)

/-- The raise command (R59). -/
def State.raiseArm (s : State) (l : LaneNo) : State × Option Arrival :=
  let b := s.barrier l
  match b.state with
  | .down | .lowering => s.enterRaising l
  | .raising | .up => (s.modBarrier l fun b => { b with exitHold := false }, none)
  | .fault => if b.faultMark then (s.modBarrier l fun b => { b with pending := some .raise }, none) else s.enterRaising l

/-- The lower command (R60). -/
def State.lowerArm (s : State) (l : LaneNo) : State × Option Arrival :=
  let b := s.barrier l
  match b.state with
  | .up | .raising =>
    if s.input l .exit then (s.modBarrier l fun b => { b with exitHold := true }, none) else s.enterLowering l
  | .lowering | .down => (s, none)
  | .fault => if b.faultMark then (s.modBarrier l fun b => { b with pending := some .lower }, none) else s.enterLowering l

/-- EXIT LOOP becomes occupied: in LOWERING the arm is reversed and the reversal counted (R62). -/
def State.reverseArm (s : State) (l : LaneNo) : State × Option Arrival :=
  if (s.barrier l).state = .lowering then
    (s.modCounters l fun c => { c with reversals := satInc c.reversals }).enterRaising l
  else (s, none)

/-- EXIT LOOP becomes clear: a lower that waits for it is carried out (R60). -/
def State.exitClears (s : State) (l : LaneNo) : State × Option Arrival :=
  if (s.barrier l).exitHold then s.lowerArm l else (s, none)

/-- A sense line becomes active (R61). -/
def State.senseUp (s : State) (l : LaneNo) : State × Option Arrival :=
  if (s.barrier l).state = .raising then s.arriveAt l .up else (s, none)

/-- BARRIER DOWN SENSE becomes active (R61). -/
def State.senseDown (s : State) (l : LaneNo) : State × Option Arrival :=
  if (s.barrier l).state = .lowering then s.arriveAt l .down else (s, none)

/-- The lane holds a visit whose verdict has been formed. -/
def State.verdictFormed (s : State) (l : LaneNo) : Bool := (s.visit l).any fun v => v.verdict.isSome

/-- The pending motion is attempted from FAULT (R64). -/
def State.attemptMotion (s : State) (l : LaneNo) : State × Option Arrival :=
  if (s.barrier l).state ≠ .fault then (s, none)
  else if (s.barrier l).pending = some .raise ∧ s.verdictFormed l then s.enterRaising l
  else s.enterLowering l

/-- The position of a barrier in FAULT is found again (R65). -/
def State.findArm (s : State) (l : LaneNo) : State × Option Arrival :=
  let b := s.barrier l
  if b.state ≠ .fault then (s, none)
  else if b.pending = some .raise ∧ s.input l .upSense ∧ s.input l .downSense = false then s.arriveAt l .up
  else if b.pending = some .lower ∧ s.input l .downSense ∧ s.input l .upSense = false then s.arriveAt l .down
  else s.attemptMotion l

/-- The barrier's entry has left OPEN by resolution (R65). -/
def State.barrierFreed (s : State) (l : LaneNo) : State × Option Arrival :=
  (s.modBarrier l fun b => { b with faultMark := false }).findArm l

/-! ### Discards (R161) -/

/-- The entry names the lane's visit of a number. -/
def Entry.ofVisit (e : Entry) (l : LaneNo) (n : Nat) : Bool := e.lane == some l && e.visit == some n

/-- Entries of a lane are made RESOLVED with outcome DISCARDED; a BARRIER_FAULT that was OPEN lets the barrier find its
position again. The arrival that this may bring is not acted on: the lane is leaving its state. -/
def State.discard (s : State) (l : LaneNo) (p : Entry → Bool) : State :=
  let freed := s.exc.entries.any fun e => p e && e.state == .opened && e.kind == .barrierFault
  let s1 := { s with exc := { s.exc with
    entries := s.exc.entries.map fun e => if p e then e.resolved .discarded else e } }
  if freed then (s1.barrierFreed l).1 else s1

/-! ### IDLE, CLOSED and the opening of a visit -/

/-- The gate leaves DRAINING once every lane is CLOSED (R179). -/
def State.lanesClosed (s : State) : State :=
  if s.gate = .draining ∧ allLanes.all (fun l => (s.lane l).state == .closed) then s.changeGate .shut .lanesClosed else s

/-- A lane enters CLOSED (R48, R57, R161, R179). -/
def State.enterClosed (s : State) (l : LaneNo) : State :=
  let s1 := s.changeLane l .closed .laneClosed
  let s2 := s1.modLane l fun x => { x with closePending := false, stuck := ⟨⟨none, false⟩, ⟨none, false⟩, ⟨none, false⟩⟩ }
  (s2.discard l fun e => e.lane == some l && e.state == .opened).lanesClosed

/-- The number after a visit number (R26). -/
def nextNumber (n : Nat) : Nat := if n = 65535 then 1 else n + 1

/-- The counter moves on until it names a number no lane holds. Eight lanes hold at most eight numbers. -/
def State.numberAfter (s : State) : Nat → Nat → Nat
  | 0, n => n
  | k + 1, n => if allLanes.any (fun l => s.holdsVisit l n) then s.numberAfter k (nextNumber n) else n

/-- A visit context as it is made (section 2.2). -/
def Visit.opening (n : Nat) : Visit where
  number := n
  plate := none
  plateWatch := none
  front := .absent
  rear := .absent
  unplaced := []
  keyed := none
  matchState := .notTried
  claimed := none
  refused := none
  timeliness := none
  checks := ⟨.fresh, .fresh, .fresh, .fresh, .fresh, .fresh, .fresh, .fresh, .fresh, .fresh⟩
  lastBooking := .pending
  lastTimeliness := .pending
  turnAwayMark := false
  releaseMark := false
  attempted := false
  verdict := none
  reason := none
  bayStep := .notNeeded
  bay := none
  waiting := false
  hold := none
  handed := false
  delivered := false
  stallReleased := false
  searchRetried := false
  raiseCommanded := false
  passage := false
  lowerHeld := false
  surveys := 0
  idSettle := none
  lookup := none
  abandon := none
  sealWait := none
  surveyWait := none

/-- A visit opens (R26, R27); with STOP LOOP occupied its ID settle timer starts. -/
def State.openVisit (s : State) (l : LaneNo) : State :=
  let n := s.nextVisit
  let settle := if s.input l .stop then some s.store.work.idSettle else none
  let s1 := s.modLane l fun x => { x with visit := some { Visit.opening n with idSettle := settle } }
  let s2 := { s1 with nextVisit := s1.numberAfter 9 (nextNumber n) }
  (s2.modCounters l fun c => { c with visits := satInc c.visits }).changeLane l .arriving .visitOpened

/-- A lane that has entered IDLE looks at its flag and its loops (R27, R48). -/
def State.takeUpIdle (s : State) (l : LaneNo) : State :=
  if (s.lane l).closePending then s.enterClosed l
  else if s.entryClear l then s
  else s.openVisit l

/-- A lane enters IDLE. -/
def State.enterIdle (s : State) (l : LaneNo) (cause : LaneCause) : State := (s.changeLane l .idle cause).takeUpIdle l

/-! ### The end of a visit -/

/-- The claimed booking, if any, is released (R24). -/
def State.release (s : State) (l : LaneNo) (o : ReleaseOutcome) : State :=
  match (s.visit l).bind (·.claimed) with
  | some n => { s with book := s.book.release s.clock.minute n o }
  | none => s

/-- The visit context of a lane is dropped. -/
def State.dropVisit (s : State) (l : LaneNo) : State := s.modLane l fun x => { x with visit := none }

/-- Every record of the group has been sent. -/
def Group.delivered (g : Group) : Bool := g.recs.all fun r => r.sent

/-- The counter of a verdict rises (R43). -/
def LaneCounters.count (c : LaneCounters) : Verdict → LaneCounters
  | .admitIn => { c with admitted := satInc c.admitted }
  | .inspect => { c with inspect := satInc c.inspect }
  | .turnAway => { c with turnedAway := satInc c.turnedAway }

/-- The outcome with which a visit of a verdict releases its booking. -/
def Verdict.exit : Verdict → ReleaseOutcome
  | .admitIn | .inspect => .exit
  | .turnAway => .turned

/-- The visit closes at barrier DOWN (R43), its delivered group, told by the visit's number, leaving the queue. DESIGN CHOICE,
unsafe (log 38). -/
def State.visitClose (s : State) (l : LaneNo) : State :=
  match s.visit l with
  | none => s
  | some v =>
    match v.verdict with
    | none => s
    | some d =>
      let s1 := (s.release l d.exit).modCounters l fun c => c.count d
      let s2 := s1.discard l fun e => e.ofVisit l v.number && e.state == .opened
      let s3 := (s2.dropVisit l).modLane l fun x =>
        { x with
          sign := { x.sign with queue := x.sign.queue.filter fun g => !(g.visit == v.number && g.delivered) }
          lamp := .red }
      s3.enterIdle l .visitClosed

/-- The visit is abandoned (R39). -/
def State.abandonVisit (s : State) (l : LaneNo) : State :=
  match s.visit l with
  | none => s
  | some v =>
    let s1 := (s.release l .turned).discard l fun e => e.ofVisit l v.number && e.state == .opened
    let s2 := (s1.dropVisit l).modCounters l fun c => { c with abandoned := satInc c.abandoned }
    s2.enterIdle l .abandoned

/-! ### The lane's acts on the barrier's reports (R42, R43) -/

/-- The lane enters EXITING (R42). -/
def State.enterExiting (s : State) (l : LaneNo) : State :=
  (s.modLane l fun x => { x with lamp := .green }).changeLane l .exiting .barrierUp

/-- The report of DOWN closes the visit in EXITING (R43). -/
def State.onDown (s : State) (l : LaneNo) : State := if (s.lane l).state = .exiting then s.visitClose l else s

/-- The report of UP: to EXITING from DECIDED with the raise commanded; in EXITING a lower held back is commanded (R42). -/
def State.onUp (s : State) (l : LaneNo) : State :=
  match (s.lane l).state, s.visit l with
  | .decided, some v => if v.raiseCommanded then s.enterExiting l else s
  | .exiting, some v =>
    if v.lowerHeld then
      match (s.modVisit l fun v => { v with lowerHeld := false }).lowerArm l with
      | (t, some .down) => t.onDown l
      | (t, _) => t
    else s
  | _, _ => s

/-- A motion of the barrier with the lane's act on the arrival it may bring. -/
def State.arrived (r : State × Option Arrival) (l : LaneNo) : State :=
  match r with
  | (s, some .up) => s.onUp l
  | (s, some .down) => s.onDown l
  | (s, none) => s

/-- The motion under way has failed (R63). DESIGN CHOICE, unsafe (log 36): while the fault entry mark is set every motion counts as an
attempt of the standing entry, whoever commanded it, so its failure is a failure of that entry's step. -/
def State.motionFailed (s : State) (l : LaneNo) (m : Motion) : State :=
  let marked := (s.barrier l).faultMark
  let s1 := s.modBarrier l fun b => { b with state := .fault, pending := some m, exitHold := false, left := none }
  if marked then
    match s1.barrierEntry l with
    | some n => (s1.reportFailure n).1
    | none => s1
  else if (s.lane l).state = .closed then s1
  else
    let r := s1.raiseVisit .barrierFault l none (match m with | .raise => 1 | .lower => 2)
    match r.2 with
    | .openRetry | .openHold => r.1.modBarrier l fun b => { b with faultMark := true }
    | _ => r.1

end Sys2Proof.Machine
end

