-- ==== Sys2Proof/Machine/Delivery.lean ====
section
/-! DEFINITION. From verdict to raise: the direction groups and the sign lines (R129 to R141, R185), the Bay Pool (R143 to
R150), and forming the verdict (R84, R124 to R127, R40, R41). -/

namespace Sys2Proof.Machine

/-! ### Reason codes and groups (R130, R131) -/

/-- The reason code of an exception kind (R130). -/
def kindCode : ExcKind → Nat
  | .noBooking => 1
  | .bookingInUse => 2
  | .windowEarly => 3
  | .windowLateFull => 4
  | .notReleased => 5
  | .containerMismatch => 6
  | .idConflict => 7
  | .idUnreadable => 8
  | .sealMismatch => 9
  | .sealUnexpected => 10
  | .sealMissing => 11
  | .damageSevere => 12
  | .surveyMissing => 13
  | .damageNoted => 14
  | .watchHit => 15
  | .plateMismatch => 16
  | .inspectionFull | .barrierFault | .loopFault | .signStalled | .settingsRestored => 20

/-- The reason code of the value a check stands at (R130). A value that is no reason never reaches a record. -/
def outcomeCode : Outcome → Nat
  | .noBooking => 1
  | .bookingInUse => 2
  | .windowEarly => 3
  | .windowLateFull => 4
  | .notReleased => 5
  | .containerMismatch => 6
  | .idConflict => 7
  | .idUnreadable => 8
  | .sealMismatch => 9
  | .sealUnexpected => 10
  | .sealMissing => 11
  | .severe => 12
  | .surveyMissing => 13
  | .watchHit => 15
  | .fail => 17
  | .pending | .pass | .clean | .noted => 20

/-- The reason code of a deciding reason (R130). -/
def reasonCode : Reason → Nat
  | .forced => 18
  | .noClaim => 19
  | .check _ v => outcomeCode v

/-- The kind of the oldest LOGGED entry that names a visit number (R131). -/
def State.oldestLogged (s : State) (n : Nat) : Option ExcKind :=
  (s.exc.entries.find? fun e => e.visit == some n && e.state == .logged).map (·.kind)

/-- GO_TO_STOP for a move. -/
def stopRec (m : Move) : DirRec := ⟨.goToStop m.block m.row, false⟩

/-- The SEE_CLERK of an ADMIT or TURN_AWAY group, if the visit has a LOGGED entry. -/
def State.clerkRecs (s : State) (n : Nat) : List DirRec :=
  match s.oldestLogged n with
  | some k => [⟨.seeClerk (kindCode k), false⟩]
  | none => []

/-- The group of a visit, composed from the verdict, the visit and the claimed booking as they stand (R131). -/
def State.compose (s : State) (l : LaneNo) (v : Visit) : Group :=
  let code := (v.reason.map reasonCode).getD 18
  let recs : List DirRec :=
    match v.verdict with
    | some .admitIn =>
      let ms := s.claimedMoves l
      ((ms.filter fun m => m.kind.bringIn) ++ ms.filter fun m => !m.kind.bringIn).map stopRec ++ s.clerkRecs v.number
    | some .inspect =>
      [⟨match v.bay with | some b => .goToBay b | none => .goToHolding, false⟩, ⟨.seeClerk code, false⟩]
    | some .turnAway => ⟨.turnAround code, false⟩ :: s.clerkRecs v.number
    | none => []
  ⟨v.number, recs⟩

/-! ### The direction queue (R132 to R134) -/

/-- The first record of the group has been sent. -/
def Group.started (g : Group) : Bool := g.recs.any fun r => r.sent

/-- The records not yet sent. -/
def Group.unsent (g : Group) : Nat := g.recs.countP fun r => !r.sent

/-- The records in a queue. -/
def queueCount (q : List Group) : Nat := (q.map fun g => g.recs.length).sum

/-- The queue holds a group not delivered. -/
def waits (q : List Group) : Bool := q.any fun g => !g.delivered

/-- Groups are discarded from the front while the queue holds a group of another visit or the new group of `k` records
does not fit (R134); the number of records never sent is kept. DESIGN CHOICE, unsafe (log 38): a group is told by its visit's
number, also where the counter has come round and it is an earlier visit's. -/
def discardFor (n k : Nat) : List Group → List Group × Nat
  | [] => ([], 0)
  | g :: gs =>
    if (g :: gs).any (fun x => x.visit ≠ 0 ∧ x.visit ≠ n) ∨ Config.queueMax < queueCount (g :: gs) + k then
      let r := discardFor n k gs
      (r.1, r.2 + g.unsent)
    else (g :: gs, 0)

/-- The queue parted at its head group: the delivered groups before it, the head, and the groups behind. -/
def splitHead : List Group → Option (List Group × Group × List Group)
  | [] => none
  | g :: gs =>
    if g.delivered then (splitHead gs).map fun r => (g :: r.1, r.2.1, r.2.2)
    else some ([], g, gs)

/-- The fields of a direction record after its index (R185). -/
def directionFields : Direction → List Byte
  | .goToStop b r => [0] ++ b ++ u8 r ++ [0, 0, 0]
  | .goToBay b => [1, 0, 0, 0] ++ u8 b ++ [0, 0]
  | .goToHolding => [2, 0, 0, 0, 0, 0, 0]
  | .turnAround c => [3, 0, 0, 0, 0] ++ u8 c ++ [0]
  | .seeClerk c => [4, 0, 0, 0, 0] ++ u8 c ++ [0]
  | .text t => [5, 0, 0, 0, 0, 0] ++ textField t

/-- The DIRECTION frame of a record (R185). -/
def directionFrame (l : LaneNo) (visit size index : Nat) (d : Direction) : List Byte :=
  encodeFrame 0 2 (u16 visit ++ laneField l ++ u8 size ++ u8 index ++ directionFields d)

/-- The first unsent record of a group is marked sent. -/
def sendFirst : List DirRec → List DirRec
  | [] => []
  | r :: rs => if r.sent then r :: sendFirst rs else { r with sent := true } :: rs

/-- The index in its group of the first unsent record, and the record. -/
def nextRecord (rs : List DirRec) : Option (Nat × DirRec) :=
  ((List.range rs.length).zip rs).find? fun x => !x.2.sent

/-- The head group may be sent from (R137). -/
def maySend (cap credit : Nat) (g : Group) : Bool :=
  1 ≤ credit && (g.started || g.recs.length ≤ credit || (cap < g.recs.length && cap ≤ credit))

/-- One record is sent if R137 allows it. The second answer is the visit number of a visit group that this delivers. -/
def sendOne (l : LaneNo) (cap stall : Nat) (x : Sign) : Option (Sign × Option Nat) :=
  match splitHead x.queue with
  | none => none
  | some (pre, g, post) =>
    if maySend cap x.credit g then
      match nextRecord g.recs with
      | none => none
      | some (i, r) =>
        let g1 : Group := { g with recs := sendFirst g.recs }
        let gone := g1.delivered && g1.visit == 0
        let q := pre ++ (if gone then [] else [g1]) ++ post
        some ({ x with
                queue := q
                credit := x.credit - 1
                stall := if waits q then some stall else none
                reported := false
                out := x.out ++ [directionFrame l g.visit g.recs.length (i + 1) r.dir] },
              if g1.delivered ∧ g1.visit ≠ 0 then some g1.visit else none)
    else none

/-- Records are sent while R137 allows it. Each spends one unit of credit, so the credit bounds the work. -/
def sendAll (l : LaneNo) (cap stall : Nat) : Nat → Sign → Sign × List Nat
  | 0, x => (x, [])
  | n + 1, x =>
    match sendOne l cap stall x with
    | none => (x, [])
    | some (y, d) =>
      let r := sendAll l cap stall n y
      (r.1, d.toList ++ r.2)

/-- The sign of a lane changed. -/
def State.modSign (s : State) (l : LaneNo) (f : Sign → Sign) : State := s.modLane l fun x => { x with sign := f x.sign }

/-! ### Release of the lane (R41, R42) -/

/-- The release of the lane is met (R41). -/
def Visit.releaseMet (v : Visit) : Bool := (v.delivered || v.stallReleased) && v.bayStep != .pending

/-- The release is tested (R41): if it is met in DECIDED and the raise is not yet commanded, the barrier is raised; with the
raise commanded and the barrier UP the lane enters EXITING (R42, R46). -/
def State.testRelease (s : State) (l : LaneNo) : State :=
  match (s.lane l).state, s.visit l with
  | .decided, some v =>
    let s1 :=
      if v.verdict.isSome ∧ v.releaseMet ∧ v.raiseCommanded = false then
        State.arrived ((s.modVisit l fun v => { v with raiseCommanded := true }).raiseArm l) l
      else s
    if (s1.lane l).state = .decided ∧ (s1.visit l).any (fun v => v.raiseCommanded) ∧ (s1.barrier l).state = .up then
      s1.enterExiting l
    else s1
  | _, _ => s

/-- The Direction Unit serves the lane's queue (R137) and reports a delivery of the held visit's group (R138), told by its
number. DESIGN CHOICE, unsafe (log 38). -/
def State.serveSign (s : State) (l : LaneNo) : State :=
  let x := (s.lane l).sign
  let r := sendAll l (s.store.work.signCapacity.get l) s.store.work.signStall x.credit x
  let s1 := s.modSign l fun _ => r.1
  if r.2.any fun n => s1.holdsVisit l n then
    (s1.modVisit l fun v => { v with delivered := true }).testRelease l
  else s1

/-- A visit group joins the queue (R134, R139) and the queue is served. -/
def State.joinGroup (s : State) (l : LaneNo) (g : Group) : State :=
  let d := discardFor g.visit g.recs.length (s.lane l).sign.queue
  let s1 := s.modSign l fun x =>
    { x with queue := d.1 ++ [g], stall := some s.store.work.signStall, reported := false }
  (s1.modCounters l fun c => { c with discarded := satAdd c.discarded d.2 }).serveSign l

/-- The lane's queue is cleared and CLEAR is sent (R141). -/
def Sign.clear (x : Sign) : Sign :=
  { x with queue := [], credit := 0, stall := none, reported := false, out := x.out ++ [clearFrame] }

/-- The verdict is handed to the Direction Unit (R40). -/
def State.handOver (s : State) (l : LaneNo) : State :=
  match s.visit l with
  | none => s
  | some v => (s.modVisit l fun v => { v with handed := true }).joinGroup l (s.compose l v)

/-! ### The Bay Pool (R143 to R150) -/

/-- The place of the lowest-numbered FREE bay. -/
def firstFree (bs : List (Option BayHold)) : Option Nat := bs.findIdx? fun b => b.isNone

/-- The Waiting List is served (R147): the bays, the entries left waiting, and each assignment made. -/
def servePool (minute : Nat) : List BayHold → List (Option BayHold) →
    List (Option BayHold) × List BayHold × List (Nat × BayHold)
  | [], bs => (bs, [], [])
  | h :: hs, bs =>
    match firstFree bs with
    | none => (bs, h :: hs, [])
    | some i =>
      let h1 := { h with minute := minute }
      let r := servePool minute hs (bs.set i (some h1))
      (r.1, r.2.1, (i + 1, h1) :: r.2.2)

/-- The BAY_ASSIGNED notice (R147). -/
def bayNotice (bay : Nat) (h : BayHold) : Notice :=
  ⟨.bayAssigned, u8 bay ++ u16 h.visit ++ laneField h.lane ++ u32 h.booking ++ listField textField h.cids⟩

/-- An assignment is told to the host and to the lane that still holds the visit (R147). DESIGN CHOICE, unsafe (log 38): by its number,
also where the counter has come round. -/
def State.tellBay (s : State) (bay : Nat) (h : BayHold) : State :=
  let s1 := s.queueNotice (bayNotice bay h)
  if s1.holdsVisit h.lane h.visit then s1.modVisit h.lane fun v => { v with bay := some bay, waiting := false } else s1

/-- The Waiting List is served (R147). -/
def State.serveBays (s : State) : State :=
  let r := servePool s.clock.minute s.pool.waiting s.pool.bays
  r.2.2.foldl (fun t a => t.tellBay a.1 a.2) { s with pool := ⟨r.1, r.2.1⟩ }

/-- The number of the next joining, above that of every hold that stands (log 38). -/
def BayPool.nextJoin (p : BayPool) : Nat := (p.bays.filterMap id ++ p.waiting).foldl (fun m h => max m h.join) 0 + 1

/-- The record of a visit that a bay or a waiting entry carries (section 9.1). -/
def bayHoldOf (l : LaneNo) (v : Visit) (minute join : Nat) : BayHold :=
  ⟨v.number, l, v.claimed.getD 0,
    v.front.cid.toList ++ (if v.rear.spanning then [] else v.rear.cid.toList), minute, join⟩

/-- The bay step is done with a bay, or with a waiting entry, or with neither. -/
def Visit.bayDone (v : Visit) (bay : Option Nat) (waiting : Bool) : Visit :=
  { v with bayStep := .done, bay := bay, waiting := waiting }

/-- The lane asks for a bay (R144, R145); an answered request hands the verdict over. -/
def State.requestBay (s : State) (l : LaneNo) : State :=
  match s.visit l with
  | none => s
  | some v =>
    let h := bayHoldOf l v s.clock.minute s.pool.nextJoin
    let free := if s.pool.waiting = [] then firstFree s.pool.bays else none
    match free with
    | some i =>
      ({ s with pool := { s.pool with bays := s.pool.bays.set i (some h) } }.modVisit l
        fun v => { v with hold := some h.join }.bayDone (some (i + 1)) false).handOver l
    | none =>
      if s.pool.waiting.length < Config.waitingMax then
        ({ s with pool := { s.pool with waiting := s.pool.waiting ++ [h] } }.modVisit l
          fun v => { v with hold := some h.join }.bayDone none true).handOver l
      else (s.raiseVisit .inspectionFull l none s.pool.bays.length).1

/-- The record of an ASSIGNED bay by its number. -/
def BayPool.record (p : BayPool) (bay : Nat) : Option BayHold := (p.bays[bay - 1]?).join

/-- The hold is the one that the lane's visit was given at its bay request, and none of an earlier visit that bore the same
number (R143, R150). -/
def BayHold.ofVisit (h : BayHold) (l : LaneNo) (v : Visit) : Bool :=
  h.visit == v.number && h.lane == l && v.hold == some h.join

/-- The pool without the hold of a lane's visit (R150): the bay that the visit holds becomes FREE, or its waiting entry
leaves. None if the visit holds neither. -/
def BayPool.without (p : BayPool) (l : LaneNo) (v : Visit) : Option BayPool :=
  match p.bays.findIdx? fun b => b.any fun h => h.ofVisit l v with
  | some i => some { p with bays := p.bays.set i none }
  | none => if p.waiting.any fun h => h.ofVisit l v then some { p with waiting := p.waiting.eraseP fun h => h.ofVisit l v }
    else none

/-- At RESET_LANE the visit's bay is freed or its waiting entry leaves, and the list is served if either was so (R150). -/
def State.returnBay (s : State) (l : LaneNo) : State :=
  match (s.visit l).bind (s.pool.without l) with
  | some p => { s with pool := p }.serveBays
  | none => s

/-! ### Forming the verdict -/

/-- A reason as the VERDICT notice carries it (log 21): its code in the order of R126 (FORCED 0, BOOKING 1, TIMELINESS 2,
NO_CLAIM 3, RELEASE 4, then the checks of step 2 from ID_FRONT 5), and the value the check stands at. -/
def reasonField : Reason → List Byte
  | .forced => [0, 0]
  | .noClaim => [3, 0]
  | .check n o =>
    let code := match n with
      | .booking => 1 | .timeliness => 2 | .release => 4 | .idFront => 5 | .idRear => 6 | .sealFront => 7
      | .sealRear => 8 | .damageFront => 9 | .damageRear => 10 | .watch => 11
    u8 code ++ [1] ++ u8 o.ctorIdx

/-- A waiver as reports carry it: an exception kind, or for WATCH an identity, plate 0, FRONT 1, REAR 2. -/
def waiverField : Waiver → List Byte
  | .kind k => u8 k.ctorIdx
  | .identity i => u8 i.ctorIdx

/-- A check as reports carry it (R116, R127): outcome, override, changed mark, ignored count, waivers, the value it stands
at. An override is coded none 0, PASS 1, FAIL 2. -/
def checkFields (n : CheckName) (c : Check) : List Byte :=
  u8 c.outcome.ctorIdx ++ (match c.override with | none => [0] | some true => [1] | some false => [2])
    ++ flag c.changed ++ u8 c.ignored ++ listField waiverField c.waivers ++ u8 (c.value n).ctorIdx

/-- The ten checks in order. -/
def checksFields (c : Checks) : List Byte := allChecks.flatMap fun n => checkFields n (c.get n)

/-- Every changed mark is cleared. -/
def Checks.clearMarks (c : Checks) : Checks :=
  allChecks.foldl (fun c n => c.set n { c.get n with changed := false }) c

/-- The VERDICT notice (R127). -/
def verdictNotice (l : LaneNo) (v : Visit) : Notice :=
  ⟨.verdict, laneField l ++ u16 v.number ++ optVerdict ++ optField reasonField v.reason ++ u32 (v.claimed.getD 0)
    ++ u32 (v.refused.getD 0) ++ optField (fun t : Timeliness => u8 t.ctorIdx) v.timeliness ++ checksFields v.checks
    ++ flag v.turnAwayMark⟩
where
  optVerdict : List Byte := match v.verdict with | some d => u8 d.ctorIdx | none => []

/-- The VERDICT notice is queued; if it goes, the changed marks it carries are cleared (R127). -/
def State.tellVerdict (s : State) (l : LaneNo) : State :=
  match s.visit l with
  | none => s
  | some v =>
    let s1 := s.queueNotice (verdictNotice l v)
    if s.noticeGoes .verdict then s1.modVisit l fun v => { v with checks := v.checks.clearMarks } else s1

/-- The lane enters DECIDED (R40): its timers stop, and the verdict goes to the Direction Unit or a bay is asked for. -/
def State.enterDecided (s : State) (l : LaneNo) : State :=
  let s1 := (s.modVisit l fun v =>
    { v with
      idSettle := none, lookup := none, abandon := none, sealWait := none, surveyWait := none
      matchState := if v.matchState = .looking then .waiting else v.matchState
      bayStep := if v.verdict = some .inspect then .pending else .notNeeded }).changeLane l .decided .verdict
  if (s1.visit l).any fun v => v.verdict == some .inspect then s1.requestBay l else s1.handOver l

/-- The lane is in a state from which a verdict is formed. -/
def State.gathers (s : State) (l : LaneNo) : Bool := (s.lane l).state.gathers

/-- Steps 3 and 4 of an attempt: RELEASE is evaluated and NOT_RELEASED raised the first time it is found (R119). -/
def State.releaseStep (s : State) (l : LaneNo) : State :=
  match s.visit l with
  | none => s
  | some v =>
    if v.claimed.isNone then s
    else
      let s1 := s.evaluate l .release
      match firstUnreleased (s.claimedMoves l) with
      | some n =>
        if v.releaseMark then s1
        else (s1.raiseVisit .notReleased l none n).1.modVisit l fun v => { v with releaseMark := true }
      | none => s1

/-- The verdict is decided and recorded (R126). -/
def State.recordVerdict (s : State) (l : LaneNo) : State :=
  s.modVisit l fun v =>
    let d := decideVerdict v
    { v with verdict := some d.1, reason := d.2 }

/-- An attempt to form the verdict (R125), in ARRIVING, AWAITING_HOST or CHECKING alone. -/
def State.attempt (s : State) (l : LaneNo) : State :=
  if s.gathers l = false ∨ (s.visit l).isNone then s
  else
    let s0 := s.modVisit l fun v => { v with attempted := true }
    let s1 := ((s0.watchTest l .plate).watchTest l .front).watchTest l .rear
    if s1.gathers l = false then s1
    else
      let s2 := s1.releaseStep l
      if s2.gathers l = false then s2
      else (((s2.evaluate l .watch true).recordVerdict l).tellVerdict l).enterDecided l

/-- No entry of the lane's visit whose kind belongs to a check stands OPEN under RETRY (R124). -/
def State.noRetryOpen (s : State) (l : LaneNo) (n : Nat) : Bool :=
  !(s.exc.entries.any fun e => e.retrying && e.ofVisit l n && (checkOf e.kind e.pos).isSome)

/-- The conditions for the verdict are tested in CHECKING (R124). -/
def State.settle (s : State) (l : LaneNo) : State :=
  match (s.lane l).state, s.visit l with
  | .checking, some v => if checksSettled v ∧ s.noRetryOpen l v.number then s.attempt l else s
  | _, _ => s

end Sys2Proof.Machine
end

