-- ==== Sys2Proof/Machine/Container.lean ====
section
/-! DEFINITION. The shared work on the positions of a visit: placing container IDs (R67, R71 to R74), finding the moves
(R89), seal parts (R86 to R97), and damage parts (R99 to R113). -/

namespace Sys2Proof.Machine

/-! ### Position records -/

/-- The position record is made if it is absent (R67). -/
def State.makePos (s : State) (l : LaneNo) (p : Pos) : State := s.modPos l p fun r => { r with made := true }

/-- The seal part of a position changed. -/
def PosRec.modSeal (r : PosRec) (f : SealPart → SealPart) : PosRec := { r with sealPart := f r.sealPart }

/-- The damage part of a position changed. -/
def PosRec.modDamage (r : PosRec) (f : DamagePart → DamagePart) : PosRec := { r with damage := f r.damage }

/-- The record of a position of a lane's visit. -/
def State.posRec (s : State) (l : LaneNo) (p : Pos) : PosRec := ((s.visit l).map fun v => v.pos p).getD .absent

/-- The match state is CLAIMED. -/
def State.isClaimed (s : State) (l : LaneNo) : Bool := (s.visit l).any fun v => v.claimed.isSome

/-- The move of a position's seal part, from the claimed booking. -/
def State.moveOf (s : State) (l : LaneNo) (p : Pos) : Option Move :=
  (s.posRec l p).sealPart.move.bind fun m => moveAt (s.claimedMoves l) m.1

/-- A seal part without a move (R89). -/
def SealPart.none : SealPart := { SealPart.fresh with outcome := .notApplicable, phase := .closed }

/-- A damage part without a move (R99). -/
def DamagePart.none : DamagePart := { DamagePart.fresh with outcome := .notApplicable, phase := .closed }

/-! ### Seal parts -/

/-- A seal part's failing outcome is raised under its mark (R93). The detail value is the number of extra seals. -/
def State.raiseSeal (s : State) (l : LaneNo) (p : Pos) (o : SealOutcome) (extra : Nat) : State :=
  let sp := (s.posRec l p).sealPart
  match o with
  | .mismatch =>
    if sp.mismatchMark then s
    else (s.raiseVisit .sealMismatch l (some p) extra).1.modPos l p fun r =>
      r.modSeal fun x => { x with mismatchMark := true }
  | .unexpected =>
    if sp.unexpectedMark then s
    else (s.raiseVisit .sealUnexpected l (some p) extra).1.modPos l p fun r =>
      r.modSeal fun x => { x with unexpectedMark := true }
  | _ => s

/-- The stored SEAL_MISSING entry of a part is reported cleared, if it stands OPEN under RETRY. -/
def State.clearEntry (s : State) (n : Option Nat) : State :=
  match n with
  | some n => s.reportCleared n
  | none => s

/-- A seal part is worked out by R91: nothing for a final part, for a part without a move, and for a part of basis
EXPECTED while its phase is OPEN. An EXTENDED part that becomes OK is closed and its entry cleared (R95); a part made OK
by an amendment is closed too (R97, `closing`). -/
def State.evalSeal (s : State) (l : LaneNo) (p : Pos) (closing : Bool := false) : State :=
  let sp := (s.posRec l p).sealPart
  match sp.move, s.moveOf l p with
  | some (_, basis), some m =>
    if sp.final ∨ basis = .expected ∧ sp.phase = .opened then s
    else
      let o := sealOutcome m sp.seen sp.phase
      let ends := decide (o = .ok) && (sp.phase == .extended || closing)
      let s1 := s.modPos l p fun r => r.modSeal fun x => { x with outcome := o, phase := if ends then .closed else x.phase }
      let s2 := if o ≠ sp.outcome then s1.raiseSeal l p o (extraSeals m.seals sp.seen).length else s1
      let s3 := if ends ∧ sp.phase = .extended then s2.clearEntry sp.entry else s2
      s3.evaluate l (sealCheck p)
  | _, _ => s

/-- A seal part takes phase CLOSED and is worked out by R91 (R94, R96). A final outcome stands. -/
def State.closeSeal (s : State) (l : LaneNo) (p : Pos) : State :=
  let sp := (s.posRec l p).sealPart
  match s.moveOf l p with
  | some m =>
    if sp.final then s.modPos l p fun r => r.modSeal fun x => { x with phase := .closed }
    else
      let o := sealOutcome m sp.seen .closed
      let s1 := s.modPos l p fun r => r.modSeal fun x => { x with outcome := o, phase := .closed }
      let s2 := if o ≠ sp.outcome then s1.raiseSeal l p o (extraSeals m.seals sp.seen).length else s1
      s2.evaluate l (sealCheck p)
  | none => s.modPos l p fun r => r.modSeal fun x => { x with phase := .closed }

/-- A seal part is closed with outcome MISSING (R95, R96). -/
def State.sealMissing (s : State) (l : LaneNo) (p : Pos) : State :=
  (s.modPos l p fun r => r.modSeal fun x => { x with outcome := .missing, phase := .closed }).evaluate l (sealCheck p)

/-- The container ID of a position's move, as the booking gives it. -/
def State.moveCid (s : State) (l : LaneNo) (p : Pos) : Text := ((s.moveOf l p).bind (·.cid)).getD []

/-- The REREAD notice for seals (R96). -/
def State.rereadSeal (s : State) (l : LaneNo) (p : Pos) : State :=
  match s.moveOf l p with
  | some m => s.reread 1 l p
      (textField (s.moveCid l p) ++ listField textField (missingSeals m.seals (s.posRec l p).sealPart.seen))
  | none => s

/-- A part at the end of the seal wait with missing and no extra seals (R95). -/
def State.endSealWait (s : State) (l : LaneNo) (p : Pos) (missing : Nat) : State :=
  if (s.posRec l p).sealPart.missingMark then s.sealMissing l p
  else
    let n := s.exc.next
    let r := s.raiseVisit .sealMissing l (some p) missing
    let s1 := r.1.modPos l p fun x => x.modSeal fun y => { y with missingMark := true }
    match r.2 with
    | .openRetry =>
      (s1.modPos l p fun x => x.modSeal fun y => { y with phase := .extended, entry := some n }).rereadSeal l p
    | .openHold => (s1.modPos l p fun x => x.modSeal fun y => { y with entry := some n }).sealMissing l p
    | _ => s1.sealMissing l p

/-- The Container Check Unit's work on one position at the expiry of the seal wait (R94). -/
def State.expireSeal (s : State) (l : LaneNo) (p : Pos) : State :=
  let sp := (s.posRec l p).sealPart
  if sp.phase ≠ .opened then s
  else match s.moveOf l p with
    | none => s
    | some m =>
      let miss := missingSeals m.seals sp.seen
      if m.kind = .deliverFull ∧ sp.outcome = .pending ∧ miss ≠ [] ∧ extraSeals m.seals sp.seen = [] then
        s.endSealWait l p miss.length
      else s.closeSeal l p

/-- A seal joins a list of at most four (R88, R90): whether it was a duplicate, and the list; none if the list is full. -/
def addSeal (xs : List SeenSeal) (x : SeenSeal) : Option (Bool × List SeenSeal) :=
  if xs.any fun y => y.text == x.text then
    some (true, xs.map fun y => if y.text = x.text ∧ x.source = .clerk then { y with source := .clerk } else y)
  else if xs.length < 4 then some (false, xs ++ [x])
  else none

/-- The duplicates ignored counter of a lane rises. -/
def State.countDuplicate (s : State) (l : LaneNo) : State :=
  s.modCounters l fun c => { c with duplicates := satInc c.duplicates }

/-- The position to which an UNKNOWN seal read goes after the claim (R90). -/
def State.sealPlace (s : State) (l : LaneNo) (t : Text) : Option Pos :=
  let declares := fun p => (s.moveOf l p).any fun m => m.kind == .deliverFull && m.seals.contains t
  let has := fun p => (s.moveOf l p).isSome
  match bothPos.find? declares with
  | some p => some p
  | none =>
    match bothPos.filter has with
    | [p] => some p
    | _ => none

/-! ### Damage parts -/

/-- The terms of an evaluation taken now (R102). -/
def State.gradeTerms (s : State) (known : Nat) : GradeTerms :=
  let w := s.store.work
  ⟨w.minDepth, w.weights, w.noteThreshold, w.severeThreshold, known⟩

/-- A damage outcome that has become NOTED or SEVERE is raised under its mark (R109). -/
def State.raiseDamage (s : State) (l : LaneNo) (p : Pos) (was : DamageOutcome) : State :=
  let d := (s.posRec l p).damage
  if d.outcome = was then s
  else match d.outcome with
    | .noted =>
      if d.notedMark then s
      else (s.raiseVisit .damageNoted l (some p) d.excess).1.modPos l p fun r =>
        r.modDamage fun x => { x with notedMark := true }
    | .severe =>
      if d.severeMark then s
      else (s.raiseVisit .damageSevere l (some p) d.excess).1.modPos l p fun r =>
        r.modDamage fun x => { x with severeMark := true }
    | _ => s

/-- A survey of a position with a move is evaluated (R102): the part takes the grade, its exceptions are raised and the check
follows (R108, R109); then an EXTENDED part, closed by it, has its SURVEY_MISSING entry cleared (R112; the order of R108's
sentences, log 23). -/
def State.gradeSurvey (s : State) (l : LaneNo) (p : Pos) (sv : Survey) : State :=
  match s.moveOf l p with
  | none => s
  | some m =>
    let d := (s.posRec l p).damage
    let s1 := s.modPos l p fun r => r.modDamage fun x =>
      { x.grade (s.gradeTerms m.known) sv with phase := if x.phase = .extended then .closed else x.phase }
    let s2 := (s1.raiseDamage l p d.outcome).evaluate l (damageCheck p)
    if d.phase = .extended then s2.clearEntry d.entry else s2

/-- The basis of a position's move is RECORDED. -/
def PosRec.recorded (r : PosRec) : Bool := r.sealPart.move.any fun m => m.2 == .recorded

/-- A held survey of a position with a recorded move is evaluated (R102). -/
def State.gradeHeld (s : State) (l : LaneNo) (p : Pos) : State :=
  let r := s.posRec l p
  match r.damage.held with
  | some sv => if r.recorded then s.gradeSurvey l p sv else s
  | none => s

/-- A damage part is closed as UNSURVEYED, the survey-missing effect being read once (R111). -/
def State.unsurveyed (s : State) (l : LaneNo) (p : Pos) : State :=
  (s.modPos l p fun r => r.modDamage fun x =>
    { x with phase := .closed, outcome := .unsurveyed, effectInspect := s.store.work.surveyMissingInspect }).evaluate l
    (damageCheck p)

/-- The REREAD notice for a survey (R111). -/
def State.rereadSurvey (s : State) (l : LaneNo) (p : Pos) : State := s.reread 2 l p (textField (s.moveCid l p))

/-- A part at the end of the survey wait with no survey of any kind (R111). -/
def State.endSurveyWait (s : State) (l : LaneNo) (p : Pos) : State :=
  if (s.posRec l p).damage.missingMark then s.unsurveyed l p
  else
    let n := s.exc.next
    let r := s.raiseVisit .surveyMissing l (some p) 0
    let s1 := r.1.modPos l p fun x => x.modDamage fun y => { y with missingMark := true }
    match r.2 with
    | .openRetry =>
      (s1.modPos l p fun x => x.modDamage fun y => { y with phase := .extended, entry := some n }).rereadSurvey l p
    | .openHold => (s1.modPos l p fun x => x.modDamage fun y => { y with entry := some n }).unsurveyed l p
    | _ => s1.unsurveyed l p

/-- The Container Check Unit's work on one position at the expiry of the survey wait (R110). -/
def State.expireSurvey (s : State) (l : LaneNo) (p : Pos) : State :=
  let r := s.posRec l p
  if r.damage.phase ≠ .opened ∨ r.sealPart.move.isNone then s
  else if r.damage.graded.isSome ∨ r.damage.held.isSome then
    s.modPos l p fun x => x.modDamage fun y => { y with phase := .closed }
  else s.endSurveyWait l p

/-- A survey is held in a position (R101); an EXTENDED part is closed and its entry cleared (R112). -/
def State.holdSurvey (s : State) (l : LaneNo) (p : Pos) (sv : Survey) : State :=
  let d := (s.posRec l p).damage
  let s1 := s.modPos l p fun r => PosRec.modDamage { r with made := true } fun x =>
    { x with held := some sv, phase := if x.phase = .extended then .closed else x.phase }
  if d.phase = .extended then s1.clearEntry d.entry else s1

/-! ### Finding the moves (R89) -/

/-- The seal part that a position takes with a move: the move's own part from the position it had, else the part of this
position (a part without a move gives a fresh one). -/
def takeSeal (place : Nat) (own other : SealPart) : SealPart :=
  if own.move.any fun m => m.1 == place then own
  else if other.move.any fun m => m.1 == place then other
  else if own.outcome = .notApplicable then .fresh
  else own

/-- The damage part that a position takes with a move; a held survey stays with its position (R99). -/
def takeDamage (place : Nat) (own other : PosRec) : DamagePart :=
  let d :=
    if own.sealPart.move.any fun m => m.1 == place then own.damage
    else if other.sealPart.move.any fun m => m.1 == place then other.damage
    else if own.damage.outcome = .notApplicable then .fresh
    else own.damage
  { d with held := own.damage.held }

/-- A position record with the move R89 finds for it. -/
def reseat (mv : Option (Nat × Basis)) (own other : PosRec) : PosRec :=
  match mv with
  | some (n, b) =>
    { own with
      made := true
      sealPart := { takeSeal n own.sealPart other.sealPart with move := some (n, b) }
      damage := takeDamage n own other }
  | none => { own with sealPart := .none, damage := .none }

/-- The DAMAGE check of a position no longer shows its part (R99): the outcome is another, or the part is UNSURVEYED with another
survey-missing effect (R111). -/
def damageShifts (was now : DamagePart) : Bool :=
  now.outcome != was.outcome || (now.outcome == .unsurveyed && now.effectInspect != was.effectInspect)

/-- The moves of both positions are found (R89); a check follows where an outcome of its part has changed. -/
def State.findMoves (s : State) (l : LaneNo) : State :=
  match s.visit l with
  | none => s
  | some v =>
    let m := seatMoves (s.claimedMoves l) v.front v.rear
    let f := reseat m.1 v.front v.rear
    let r := reseat m.2 v.rear v.front
    let s1 := s.modVisit l fun v => { v with front := f, rear := r }
    let on := fun (b : Bool) (n : CheckName) (t : State) => if b then t.evaluate l n else t
    on (f.sealPart.outcome != v.front.sealPart.outcome) .sealFront <|
      on (r.sealPart.outcome != v.rear.sealPart.outcome) .sealRear <|
      on (damageShifts v.front.damage f.damage) .damageFront <|
      on (damageShifts v.rear.damage r.damage) .damageRear s1

/-! ### Spanning (R67, R86, R99) -/

/-- The seen seals of REAR are merged into those of FRONT (R86). -/
def mergeSeen : List SeenSeal → List SeenSeal → List SeenSeal
  | front, [] => front
  | front, x :: xs =>
    mergeSeen (if front.length < 4 ∧ front.all (fun y => y.text ≠ x.text) then front ++ [x] else front) xs

/-- The held survey of FRONT when a box comes to span (R99). -/
def mergeHeld (front : DamagePart) (rear : Option Survey) : Option Survey :=
  match rear with
  | none => front.held
  | some r =>
    match front.held, front.graded with
    | none, none => some r
    | some f, _ => if f.order < r.order then some r else some f
    | none, some g => if g.order < r.order then some r else none

/-- A box spans both positions (R67): its ID and the spanning mark in both, the parts of REAR merged into those of FRONT,
and the watch mark of the one identity in both. -/
def Visit.span (v : Visit) (t : Text) : Visit :=
  let w := v.front.watch <|> v.rear.watch
  { v with
    front := { v.front with
      made := true, cid := some t, spanning := true, watch := w
      sealPart := { v.front.sealPart with seen := mergeSeen v.front.sealPart.seen v.rear.sealPart.seen }
      damage := { v.front.damage with held := mergeHeld v.front.damage v.rear.damage.held } }
    rear := { v.rear with
      made := true, cid := some t, spanning := true, watch := w, sealPart := .none, damage := .none } }

/-- The parts of REAR that a spanning leaves not applicable reach their checks. -/
def State.spanBox (s : State) (l : LaneNo) (t : Text) : State :=
  let was := s.posRec l .rear
  let s1 := s.modVisit l fun v => v.span t
  let s2 := if was.sealPart.outcome ≠ .notApplicable then s1.evaluate l .sealRear else s1
  if was.damage.outcome ≠ .notApplicable then s2.evaluate l .damageRear else s2

/-! ### Placing an ID (R71 to R74) -/

/-- What placing an ID comes to. -/
inductive Placing where
  | one (p : Pos)
  | both
  | duplicate
  | conflict
deriving DecidableEq, Repr

/-- The placing table of R73. -/
def placeId (f r : PosRec) (t : Text) (named : ReadPos) : Placing :=
  let clear := fun x : PosRec => x.cid == none || x.cid == some t
  match named with
  | .whole =>
    if f.spanning ∧ f.cid = some t then .duplicate
    else if clear f && clear r then .both
    else .conflict
  | .front =>
    if f.spanning then (if f.cid = some t then .duplicate else .conflict)
    else if f.cid = none then (if r.cid = some t then .duplicate else .one .front)
    else if f.cid = some t then .duplicate else .conflict
  | .rear =>
    if f.spanning then (if f.cid = some t then .duplicate else .conflict)
    else if r.cid = none then (if f.cid = some t then .duplicate else .one .rear)
    else if r.cid = some t then .duplicate else .conflict
  | .unknown =>
    if f.cid = some t ∨ r.cid = some t then .duplicate
    else if f.cid = none then .one .front
    else if r.cid = none then .one .rear
    else .conflict

/-- The position a read is charged to (R71). -/
def ReadPos.charged : ReadPos → Pos
  | .rear => .rear
  | _ => .front

/-- The ID stands in a position of a visit held by another lane (R72). -/
def State.idElsewhere (s : State) (l : LaneNo) (t : Text) : Bool :=
  allLanes.any fun o => o != l && (s.visit o).any fun v => v.front.cid == some t || v.rear.cid == some t

/-- ID_CONFLICT is raised under the conflict mark of the position (R73). -/
def State.raiseConflict (s : State) (l : LaneNo) (p : Pos) (detail : Nat) : State :=
  let s0 := s.makePos l p
  if (s.posRec l p).conflict then s0
  else ((s0.raiseVisit .idConflict l (some p) detail).1.modPos l p fun r => { r with conflict := true }).evaluate l
    (idCheck p)

/-- CONTAINER_MISMATCH is raised under the mismatch mark of the position (R74, R75). -/
def State.raiseMismatch (s : State) (l : LaneNo) (p : Pos) (detail : Nat) : State :=
  let s0 := s.makePos l p
  if (s.posRec l p).mismatch then s0
  else ((s0.raiseVisit .containerMismatch l (some p) detail).1.modPos l p fun r =>
    { r with mismatch := true }).evaluate l (idCheck p)

/-- ID_UNREADABLE is raised under the unreadable mark of the position (R71, R76). -/
def State.raiseUnreadable (s : State) (l : LaneNo) (p : Pos) (detail : Nat) : State :=
  let s0 := s.makePos l p
  if (s.posRec l p).unreadable then s0
  else ((s0.raiseVisit .idUnreadable l (some p) detail).1.modPos l p fun r =>
    { r with unreadable := true }).evaluate l (idCheck p)

/-- Some bring-in box of the claimed booking has its ID recorded in no position (R71). -/
def State.boxMissing (s : State) (l : LaneNo) : Bool :=
  !(missingPlaces (s.claimedMoves l) (s.posRec l .front).cid (s.posRec l .rear).cid).isEmpty

/-- A misread is charged to a position (R71). -/
def State.misread (s : State) (l : LaneNo) (p : Pos) : State :=
  let s1 := s.modPos l p fun r => { r with made := true, misreads := satInc8 r.misreads }
  let s2 := s1.modCounters l fun c => { c with misreads := satInc c.misreads }
  let r := s2.posRec l p
  if s.store.work.misreadLimit ≤ r.misreads ∧ r.cid = none ∧ r.unreadable = false
      ∧ (s.isClaimed l = false ∨ s2.boxMissing l) then
    s2.raiseUnreadable l p r.misreads
  else s2

/-- After an ID has been recorded: the retried entries of the filled positions are cleared (R77), the watch test runs
(R83), after the claim the moves are found again, the seal part whose ID this is and a held survey are judged (R89,
R102), and the ID checks follow (R118). -/
def State.idRecorded (s : State) (l : LaneNo) (t : Text) (filled : List Pos) (test : Identity) : State :=
  let s1 := filled.foldl (fun t p => t.clearRetry .idUnreadable l (some p)) s
  let s2 := s1.watchTest l test
  let s3 :=
    if s2.isClaimed l then
      let u := bothPos.foldl (fun u p =>
        if (u.posRec l p).recorded ∧ (u.posRec l p).cid = some t then u.evalSeal l p else u) (s2.findMoves l)
      bothPos.foldl (fun u p => u.gradeHeld l p) u
    else s2
  s3.evaluateIds l

/-- The results of an ID read (R69). -/
inductive IdResult where
  | recorded | duplicate | misread | conflict | mismatch
deriving DecidableEq, Repr

/-- An ID is placed by R73 and its consequences drawn; a conflict is raised for the position the read is charged to. -/
def State.placeRead (s : State) (l : LaneNo) (t : Text) (named : ReadPos) (charged : Pos) : State × IdResult :=
  let f := s.posRec l .front
  let r := s.posRec l .rear
  match placeId f r t named with
  | .one p =>
    ((s.modPos l p fun x => { x with made := true, cid := some t }).idRecorded l t [p]
      (match p with | .front => .front | .rear => .rear), .recorded)
  | .both =>
    ((s.spanBox l t).idRecorded l t (bothPos.filter fun p => (s.posRec l p).cid.isNone) .front, .recorded)
  | .duplicate => (s.countDuplicate l, .duplicate)
  | .conflict => (s.raiseConflict l charged 1, .conflict)

/-- A valid ID is placed (R72 to R74). After the claim the booking's move changes where the read is placed, not the position
it is charged to. -/
def State.takeId (s : State) (l : LaneNo) (t : Text) (named : ReadPos) : State × IdResult :=
  if s.idElsewhere l t then (s.raiseConflict l named.charged 2, .conflict)
  else if s.isClaimed l then
    match placeOfCid (s.claimedMoves l) t with
    | none => (s.raiseMismatch l named.charged 1, .mismatch)
    | some n =>
      if (moveAt (s.claimedMoves l) n).any fun m => m.length != .l20 then s.placeRead l t .whole named.charged
      else s.placeRead l t (if named = .whole then .unknown else named) named.charged
  else s.placeRead l t named named.charged

end Sys2Proof.Machine
end

