-- ==== Sys2Proof/Machine/Match.lean ====
section
/-! DEFINITION. Finding and claiming the booking (R30 to R36, R78, R79), and the steps of the claim (R38, R75, R92, R102). -/

namespace Sys2Proof.Machine

/-! ### The search (R78) -/

/-- The distance between a window's start in the two-day frame and a minute of day. -/
def windowDistance (minute window : Nat) : Nat := (30 * window - minute) + (minute - 30 * window)

/-- The better of two candidates: the nearer window start, the lower number at equal distance. -/
def betterBooking (minute : Nat) (a b : Booking) : Booking :=
  let da := windowDistance minute a.window
  let db := windowDistance minute b.window
  if da < db ∨ da = db ∧ a.number < b.number then a else b

/-- The booking chosen among candidates. -/
def nearest (minute : Nat) : List Booking → Option Booking
  | [] => none
  | k :: ks =>
    match nearest minute ks with
    | none => some k
    | some m => some (betterBooking minute k m)

/-- The booking has a bring-in move with a container ID. -/
def Booking.bringsIn (k : Booking) (t : Text) : Bool := k.moves.any fun m => m.kind.bringIn && m.cid == some t

/-- The candidate of the keyed number. -/
def keyedCandidate (b : BookUnit) (n : Nat) : Option Booking :=
  (b.find n).filter fun k => k.state == .opened || k.state == .noShow || k.state == .inLane

/-- The candidate of a container ID. -/
def cidCandidate (b : BookUnit) (minute : Nat) (t : Text) : Option Booking :=
  let all := b.table.filter fun k => k.bringsIn t
  match nearest minute (all.filter fun k => k.state == .opened || k.state == .inLane) with
  | some k => some k
  | none => nearest minute (all.filter fun k => k.state == .noShow)

/-- The candidate of the plate. -/
def plateCandidate (b : BookUnit) (minute : Nat) (t : Text) : Option Booking :=
  nearest minute (b.table.filter fun k => k.plate == some t && (k.state == .opened || k.state == .noShow))

/-- The first candidate of a visit: the keyed number, the container IDs, the plate (R78). -/
def candidate (b : BookUnit) (minute : Nat) (v : Visit) : Option Booking :=
  (v.keyed.bind (keyedCandidate b)) <|> (v.front.cid.bind (cidCandidate b minute))
    <|> (v.rear.cid.bind (cidCandidate b minute)) <|> (v.plate.bind (plateCandidate b minute))

/-! ### Lookups (R32) -/

/-- The LOOKUP notice (R32). -/
def lookupNotice (l : LaneNo) (v : Visit) : Notice :=
  ⟨.lookup, laneField l ++ u16 v.number ++ optField textField v.plate ++ optField textField v.front.cid
    ++ optField textField v.rear.cid ++ optField u32 v.keyed ++ optField u32 v.refused⟩

/-- A LOOKUP is sent: match state LOOKING, the lookup timer starts (R32). -/
def State.sendLookup (s : State) (l : LaneNo) : State :=
  match s.visit l with
  | none => s
  | some v => (s.queueNotice (lookupNotice l v)).modVisit l fun v =>
      { v with matchState := .looking, lookup := some s.store.work.lookup }

/-- An outstanding lookup ends and its timer stops; the match state is then WAITING. -/
def State.endLookup (s : State) (l : LaneNo) : State :=
  s.modVisit l fun v =>
    { v with lookup := none, matchState := if v.matchState = .looking then .waiting else v.matchState }

/-- The abandon timer starts if both loops are clear and it is not running (R39). -/
def State.startAbandon (s : State) (l : LaneNo) : State :=
  if s.entryClear l then
    s.modVisit l fun v => { v with abandon := some (v.abandon.getD s.store.work.abandon) }
  else s

/-! ### A failed search (R31, R35) -/

/-- The match state of the lane's visit. -/
def State.setMatch (s : State) (l : LaneNo) (m : MatchState) : State := s.modVisit l fun v => { v with matchState := m }

/-- A failure has been raised with match state FAILED: under NOTE or SILENT, or lost without a hold, the verdict is formed
at once (R31, R156). A lane in TROUBLE forms none. -/
def State.searchFailed (s : State) (l : LaneNo) : State := (s.setMatch l .failed).attempt l

/-- NO_BOOKING is raised; once an entry of it has stood under RETRY in the visit, each further one is reported as a failure
of that entry's step, which changes nothing if the entry no longer stands OPEN under RETRY (R31, R35, R160; log 12). -/
def State.noBooking (s : State) (l : LaneNo) (detail : Nat) : State :=
  let s1 := (s.endLookup l).bookingEvent l .noBooking
  if (s1.visit l).any Visit.searchRetried then
    match s1.retryEntry .noBooking l none with
    | some n =>
      let r := s1.reportFailure n
      if r.2 = .escalated then r.1.setMatch l .failed else r.1
    | none => s1
  else
    let r := s1.raiseVisit .noBooking l none detail
    match r.2 with
    | .openRetry => r.1.modVisit l fun v => { v with searchRetried := true }
    | .openHold => r.1.setMatch l .failed
    | _ => r.1.searchFailed l

/-- BOOKING_IN_USE is raised with the holding lane (R30, R79). -/
def State.bookingInUse (s : State) (l holder : LaneNo) : State :=
  let s1 := ((s.endLookup l).setMatch l .failed).bookingEvent l .bookingInUse
  ((s1.raiseVisit .bookingInUse l none (laneNumber holder)).1).searchFailed l

/-- A claim has been refused with LATE_FULL (R22, R30). -/
def State.windowLateFull (s : State) (l : LaneNo) (number window : Nat) : State :=
  let s1 := ((s.endLookup l).modVisit l fun v =>
    { v with refused := some number, matchState := .failed }).timelinessEvent l .windowLateFull
  ((s1.raiseVisit .windowLateFull l none window).1).searchFailed l

/-! ### The claim (R38, R75, R92) -/

/-- Widening (R75 step 1): a bring-in box of class L40 or L45 recorded in one position alone is made to span, or the other
position, holding a different ID, raises CONTAINER_MISMATCH with detail 2. -/
def State.widen (s : State) (l : LaneNo) : State :=
  let long := (bringIns (s.claimedMoves l)).filter fun m => m.2.length != .l20
  long.foldl (fun t m =>
    match m.2.cid with
    | none => t
    | some c =>
      let f := t.posRec l .front
      let r := t.posRec l .rear
      if f.spanning then t
      else match (if f.cid = some c then some Pos.front else if r.cid = some c then some Pos.rear else none) with
        | none => t
        | some p =>
          if (t.posRec l p.other).cid = none then (t.spanBox l c).clearRetry .idUnreadable l (some p.other)
          else t.raiseMismatch l p.other 2) s

/-- Foreign boxes (R75 step 2): a position with an ID that is no bring-in ID of the booking raises CONTAINER_MISMATCH with
detail 1; a spanning foreign box is charged to FRONT. -/
def State.flagForeign (s : State) (l : LaneNo) : State :=
  bothPos.foldl (fun t p =>
    let r := t.posRec l p
    if r.cid.isSome ∧ holdsBringIn (t.claimedMoves l) r = false ∧ ¬(r.spanning ∧ p = .rear) then t.raiseMismatch l p 1
    else t) s

/-- Plate comparison (R75 step 3). -/
def State.comparePlates (s : State) (l : LaneNo) : State :=
  match (s.claimedBooking l).bind (·.plate), (s.visit l).bind (·.plate) with
  | some a, some b => if a = b then s else (s.raiseVisit .plateMismatch l none 0).1
  | _, _ => s

/-- The unplaced seals are placed as R90 places an UNKNOWN read (R92 step 2). -/
def State.placeUnplaced (s : State) (l : LaneNo) : State :=
  let xs := ((s.visit l).map (·.unplaced)).getD []
  xs.foldl (fun t x =>
    match t.sealPlace l x.text with
    | none => t
    | some p =>
      match addSeal (t.posRec l p).sealPart.seen x with
      | none => t
      | some (true, seen) => (t.modPos l p fun r => r.modSeal fun y => { y with seen := seen }).countDuplicate l
      | some (false, seen) => t.modPos l p fun r => r.modSeal fun y => { y with seen := seen })
    (s.modVisit l fun v => { v with unplaced := [] })

/-- What a claim made sets in motion (R30, R38): CHECKING with cause MATCHED, the NO_BOOKING entry cleared (R35), BOOKING and
TIMELINESS, the two waits, WINDOW_EARLY, the claim steps of the Identity Unit (R75) and of the Container Check Unit (R92,
R102), the ID checks. -/
def State.takeClaim (s : State) (l : LaneNo) (k : Booking) (c : Timeliness) : State :=
  let w := s.store.work
  let s1 := s.modVisit l fun v =>
    { v with
      matchState := .claimed, claimed := some k.number, timeliness := some c, idSettle := none, lookup := none
      sealWait := some w.sealWait, surveyWait := some w.surveyWait }
  let s2 := (s1.changeLane l .checking .matched).startAbandon l
  let s3 := s2.clearRetry .noBooking l none
  let s4 := (s3.bookingEvent l .pass).timelinessEvent l (if c = .early then .windowEarly else .pass)
  let s5 := if c = .early then (s4.raiseVisit .windowEarly l none (30 * k.window - s.clock.minute)).1 else s4
  let s6 := ((s5.widen l).flagForeign l).comparePlates l
  let s7 := (s6.findMoves l).placeUnplaced l
  let s8 := bothPos.foldl (fun t p => if (t.posRec l p).recorded then t.evalSeal l p else t) s7
  let s9 := bothPos.foldl (fun t p => t.gradeHeld l p) s8
  (s9.evaluateIds l).settle l

/-- The lane claims a booking at the Booking Unit and acts on the result (R20, R30, R33). -/
def State.claimBooking (s : State) (l : LaneNo) (n : Nat) : State :=
  let r := s.book.claim s.claimTerms n l (s.lane l).visitNumber
  match r.2 with
  | .claimed c _ _ =>
    match r.1.find n with
    | some k => { s with book := r.1 }.takeClaim l k c
    | none => s
  | .inUse holder _ => s.bookingInUse l holder
  | .lateFull w => s.windowLateFull l n w
  | .notFound | .final => s.noBooking l 3

/-- A match that finds no candidate (R30): a LOOKUP is sent, and the lane is in AWAITING_HOST. -/
def State.noCandidate (s : State) (l : LaneNo) : State :=
  ((s.sendLookup l).changeLane l .awaitingHost .lookupSent).startAbandon l

/-- The match is tried (R29, R30, R78, R79), in ARRIVING or AWAITING_HOST. -/
def State.tryMatch (s : State) (l : LaneNo) : State :=
  match (s.lane l).state, s.visit l with
  | .arriving, some v | .awaitingHost, some v =>
    let s1 := (s.endLookup l).modVisit l fun v => { v with idSettle := none }
    match candidate s1.book s1.clock.minute v with
    | some k =>
      match k.state, k.claim with
      | .inLane, some (holder, _) => s1.bookingInUse l holder
      | _, _ => s1.claimBooking l k.number
    | none => s1.noCandidate l
  | _, _ => s

/-! ### The retry step of NO_BOOKING, and its entry's end (R35, R36) -/

/-- The retry step (R35): with match state WAITING a LOOKUP is sent again; with LOOKING and CLAIMED the lane does nothing.
DEDUCED, unsafe (log 12): it does nothing either with FAILED, which R35 does not name. -/
def State.lookupAgain (s : State) (l : LaneNo) : State :=
  if (s.visit l).any fun v => v.matchState == .waiting then s.sendLookup l else s

/-- The entry has been resolved under RETRY: the search is taken as failed (R36). -/
def State.searchGivenUp (s : State) (l : LaneNo) : State :=
  if (s.visit l).any fun v => v.claimed.isNone then (s.endLookup l).searchFailed l else s

end Sys2Proof.Machine
end

