-- ==== Sys2Proof/Machine/Holds.lean ====
section
/-! DEFINITION. The end of a lane's holds and what settles entries: the return from TROUBLE (R46, R158), resolutions (R120,
R146, R162), and the retry steps (R35, R64, R77, R96, R112, R159, R164). -/

namespace Sys2Proof.Machine

/-! ### The return from TROUBLE (R46) -/

/-- The retry timers of the lane's entries under RETRY start again at full length (R159). -/
def State.restartRetries (s : State) (l : LaneNo) : State :=
  { s with exc := { s.exc with
    entries := s.exc.entries.map fun e : Entry =>
      if e.retrying ∧ e.lane = some l then { e with left := some s.store.work.retryInterval } else e } }

/-- The lane takes up ARRIVING or AWAITING_HOST again. -/
def State.resumeSearch (s : State) (l : LaneNo) (noted : Noted) : State :=
  let s1 := s.startAbandon l
  match (s1.visit l).map Visit.matchState with
  | some .failed => s1.attempt l
  | some .waiting => s1.tryMatch l
  | some .notTried =>
    if noted.idSettle ∨ s1.input l .stop then
      s1.modVisit l fun v => { v with idSettle := some s.store.work.idSettle }
    else s1
  | _ => s1

/-- The lane takes up CHECKING again. -/
def State.resumeChecking (s : State) (l : LaneNo) (noted : Noted) : State :=
  let w := s.store.work
  ((s.modVisit l fun v =>
    { v with
      sealWait := if noted.sealWait then some w.sealWait else none
      surveyWait := if noted.surveyWait then some w.surveyWait else none }).startAbandon l).settle l

/-- The lane takes up DECIDED again: a bay step made DONE during the hold hands the verdict over, and the release is
tested. -/
def State.resumeDecided (s : State) (l : LaneNo) : State :=
  match s.visit l with
  | none => s
  | some v => (if v.bayStep ≠ .pending ∧ v.handed = false then s.handOver l else s).testRelease l

/-- The lane takes up EXITING again. -/
def State.resumeExiting (s : State) (l : LaneNo) : State :=
  let s1 := s.modLane l fun x => { x with lamp := .green }
  if (s1.barrier l).state = .down then s1.onDown l
  else
    let s2 := s1.modVisit l fun v => { v with passage := v.passage || s1.input l .exit }
    if (s2.visit l).any (fun v => v.lowerHeld) ∧ (s2.barrier l).state = .up then
      State.arrived ((s2.modVisit l fun v => { v with lowerHeld := false }).lowerArm l) l
    else s2

/-- A lane in TROUBLE without a hold returns to the interrupted state (R46, R158). -/
def State.returnLane (s : State) (l : LaneNo) : State :=
  match (s.lane l).state, (s.lane l).interrupted with
  | .trouble, some st =>
    if s.held l then s
    else
      let noted := (s.lane l).noted
      let s1 := (s.modLane l fun x =>
        { x with interrupted := none, noted := ⟨false, false, false⟩ }).changeLane l st .holdEnded
      let s2 := s1.restartRetries l
      match st with
      | .idle => s2.takeUpIdle l
      | .arriving | .awaitingHost => s2.resumeSearch l noted
      | .checking => s2.resumeChecking l noted
      | .decided => s2.resumeDecided l
      | .exiting => s2.resumeExiting l
      | .closed | .trouble => s2
  | _, _ => s

/-! ### Resolutions (R120, R146, R162) -/

/-- The lane holds the visit the entry names, its verdict not formed. -/
def State.undecided (s : State) (l : LaneNo) (n : Option Nat) : Bool :=
  (s.visit l).any fun v => some v.number == n && v.verdict.isNone

/-- The waiver an entry gives its check (R120). -/
def waiverOf (k : ExcKind) (p : Option Pos) : Waiver :=
  if k = .watchHit then .identity (match p with | none => .plate | some .front => .front | some .rear => .rear)
  else .kind k

/-- A waiver joins a check (R120), whose waivers are a set. DESIGN CHOICE, unsafe (log 45): the set is kept, and so reported (R116,
R127), in the order in which the waivers joined. -/
def State.addWaiver (s : State) (l : LaneNo) (n : CheckName) (w : Waiver) : State :=
  s.modVisit l fun v =>
    let c := v.checks.get n
    if c.waivers.contains w then v else { v with checks := v.checks.set n { c with waivers := c.waivers ++ [w] } }

/-- The position of a DAMAGE check. -/
def CheckName.damagePos : CheckName → Option Pos
  | .damageFront => some .front
  | .damageRear => some .rear
  | _ => none

/-- A survey that is held stays held while the graded one is graded again. -/
def State.restoreHeld (s : State) (l : LaneNo) (p : Pos) (h : Option Survey) : State :=
  s.modPos l p fun r => r.modDamage fun x => { x with held := h }

/-- A check is evaluated again from the data held (R113, R120, R123): a DAMAGE check with a graded survey has it graded
again, and an UNSURVEYED part reads the survey-missing effect afresh. -/
def State.evaluateAgain (s : State) (l : LaneNo) (n : CheckName) (attempt : Bool) : State :=
  match n.damagePos with
  | none => s.evaluate l n attempt
  | some p =>
    let d := (s.posRec l p).damage
    match d.graded with
    | some sv => if (s.moveOf l p).isSome then (s.gradeSurvey l p sv).restoreHeld l p d.held else s.evaluate l n
    | none =>
      if d.outcome = .unsurveyed then
        (s.modPos l p fun r => r.modDamage fun x =>
          { x with effectInspect := s.store.work.surveyMissingInspect }).evaluate l n
      else s.evaluate l n

/-- The outcome of a resolution acts on the checks and the turn-away mark (R120), before the verdict alone. -/
def State.resolutionOnVisit (s : State) (l : LaneNo) (e : Entry) (o : Resolution) : State :=
  if s.undecided l e.visit then
    match o with
    | .waive =>
      match checkOf e.kind e.pos with
      | some n => (s.addWaiver l n (waiverOf e.kind e.pos)).evaluateAgain l n false
      | none => s
    | .turnAway => s.modVisit l fun v => { v with turnAwayMark := true }
    | .uphold | .cleared | .overridden | .discarded => s
  else s

/-- A verdict changed by a resolution of INSPECTION_FULL: reason FORCED, and a further VERDICT notice (R146). -/
def State.changeVerdict (s : State) (l : LaneNo) (d : Verdict) : State :=
  (s.modVisit l fun v => { v with verdict := some d, reason := some .forced }.bayDone none false).tellVerdict l

/-- INSPECTION_FULL is settled by the outcome of its resolution (R146). -/
def State.settleInspection (s : State) (l : LaneNo) (visit : Option Nat) (o : Resolution) : State :=
  if (s.visit l).any fun v => some v.number == visit && v.verdict == some .inspect && v.bayStep == .pending then
    match o with
    | .uphold => s.modVisit l fun v => v.bayDone none false
    | .waive => s.changeVerdict l .admitIn
    | .turnAway => s.changeVerdict l .turnAway
    | .cleared | .overridden | .discarded => s
  else s

/-- The position whose seal part an entry of SEAL_MISSING concerns, wherever R89 has moved it (R96). -/
def State.sealOf (s : State) (l : LaneNo) (n : Nat) : Option Pos :=
  bothPos.find? fun p => (s.posRec l p).sealPart.entry == some n

/-- The position whose damage part an entry of SURVEY_MISSING concerns (R112). -/
def State.damageOf (s : State) (l : LaneNo) (n : Nat) : Option Pos :=
  bothPos.find? fun p => (s.posRec l p).damage.entry == some n

/-- The raising block of an entry under RETRY is told that it has left OPEN (R162 step 2): an EXTENDED seal part is closed
and worked out (R96), an EXTENDED damage part is closed, UNSURVEYED without a survey (R112), a search fails (R36). -/
def State.tellBlock (s : State) (l : LaneNo) (e : Entry) : State :=
  match e.kind with
  | .sealMissing =>
    match s.sealOf l e.number with
    | some p => if (s.posRec l p).sealPart.phase = .extended then s.closeSeal l p else s
    | none => s
  | .surveyMissing =>
    match s.damageOf l e.number with
    | some p =>
      let d := (s.posRec l p).damage
      if d.phase ≠ .extended then s
      else if d.graded.isNone ∧ d.held.isNone then s.unsurveyed l p
      else s.modPos l p fun r => r.modDamage fun x => { x with phase := .closed }
    | none => s
  | .noBooking => if s.undecided l e.visit then s.searchGivenUp l else s
  | _ => s

/-- The stall watch starts again while a group is not delivered and the reported mark is set (R139). -/
def State.restartStall (s : State) (l : LaneNo) : State :=
  s.modSign l fun x =>
    if waits x.queue ∧ x.reported then { x with stall := some s.store.work.signStall, reported := false } else x

/-- An entry in OPEN or LOGGED becomes RESOLVED with an outcome, and steps 1 to 3 of R162 follow. The end of a hold is the
caller's. -/
def State.resolveEntry (s : State) (e : Entry) (o : Resolution) : State :=
  let s1 := s.modEntry e.number fun x => x.resolved o
  match e.lane with
  | none => s1
  | some l =>
    let s2 :=
      if e.kind = .inspectionFull then s1.settleInspection l e.visit o else s1.resolutionOnVisit l e o
    let s3 := if e.retrying then s2.tellBlock l e else s2
    if e.state = .opened ∧ e.kind = .signStalled then s3.restartStall l
    else if e.state = .opened ∧ e.kind = .barrierFault then State.arrived (s3.barrierFreed l) l
    else s3

/-- The lane's unrecorded-hold flag is cleared with the effects of R163: the barrier's finding (R65), the stall watch
(R139), a lost INSPECTION_FULL as UPHOLD (R146). -/
def State.clearUnrecorded (s : State) (l : LaneNo) : State :=
  if s.exc.unrecorded.get l then
    let s1 := { s with exc := { s.exc with unrecorded := s.exc.unrecorded.set l false } }
    let s2 := if (s1.barrier l).faultMark then s1 else State.arrived (s1.findArm l) l
    (s2.restartStall l).settleInspection l ((s2.visit l).map (·.number)) .uphold
  else s

/-- A list of entries is resolved in order with one outcome, those that no longer stand as the list took them being passed
over; the number resolved is counted. -/
def State.resolveAll (s : State) (open' : EntryState → Bool) (o : Resolution) : List Nat → State × Nat
  | [] => (s, 0)
  | n :: ns =>
    match s.entry n with
    | some e =>
      if open' e.state then
        let r := (s.resolveEntry e o).resolveAll open' o ns
        (r.1, r.2 + 1)
      else s.resolveAll open' o ns
    | none => s.resolveAll open' o ns

/-! ### Retry steps (R159) -/

/-- The retry timer of an entry that still stands OPEN under RETRY starts again. -/
def State.rearmRetry (s : State) (n : Nat) : State :=
  match s.entry n with
  | some e => if e.retrying then s.modEntry n fun x => { x with left := s.retryStart x.lane } else s
  | none => s

/-- The REREAD notice for an ID, and the position's misread count set to 0 (R77). -/
def State.rereadId (s : State) (l : LaneNo) (p : Pos) : State :=
  (s.reread 0 l p []).modPos l p fun r => { r with misreads := 0 }

/-- The retry step of ID_UNREADABLE (R77). -/
def State.stepId (s : State) (l : LaneNo) (e : Entry) (p : Pos) : State :=
  if (s.posRec l p).cid.isSome then s.reportCleared e.number
  else if e.called = false then
    ((s.modEntry e.number fun x => { x with called := true }).rereadId l p).rearmRetry e.number
  else
    match s.reportFailure e.number with
    | (t, .retrying) => t.rereadId l p
    | (t, _) => t

/-- The retry step of SEAL_MISSING (R96). -/
def State.stepSeal (s : State) (l : LaneNo) (e : Entry) : State :=
  match s.sealOf l e.number with
  | none => s.rearmRetry e.number
  | some p =>
    let sp := (s.posRec l p).sealPart
    match s.moveOf l p with
    | none => s.rearmRetry e.number
    | some m =>
      if sp.phase ≠ .extended then s.rearmRetry e.number
      else if missingSeals m.seals sp.seen = [] then (s.reportCleared e.number).closeSeal l p
      else match s.reportFailure e.number with
        | (t, .retrying) => t.rereadSeal l p
        | (t, .escalated) => t.sealMissing l p
        | (t, .nothing) => t

/-- The condition of a SURVEY_MISSING entry is reported cleared, since its part holds a survey (R112): an EXTENDED part is
CLOSED. DESIGN CHOICE, unsafe (log 41): RETRY_AGAIN finds the condition cleared so in every part that holds a survey, also in one
CLOSED, whose outcome stands, UNSURVEYED with a survey that is only held too. -/
def State.surveyFound (s : State) (l : LaneNo) (p : Pos) (n : Nat) : State :=
  (s.modPos l p fun r => r.modDamage fun x =>
    { x with phase := if x.phase = .extended then .closed else x.phase }).reportCleared n

/-- The retry step of SURVEY_MISSING (R112). -/
def State.stepSurvey (s : State) (l : LaneNo) (e : Entry) : State :=
  match s.damageOf l e.number with
  | none => s.rearmRetry e.number
  | some p =>
    let d := (s.posRec l p).damage
    if d.phase ≠ .extended then s.rearmRetry e.number
    else if d.graded.isSome ∨ d.held.isSome then s.surveyFound l p e.number
    else match s.reportFailure e.number with
      | (t, .retrying) => t.rereadSurvey l p
      | (t, .escalated) => t.unsurveyed l p
      | (t, .nothing) => t

/-- The retry step of an entry is called (R159): it acts only while the entry stands OPEN under RETRY. -/
def State.retryStep (s : State) (e : Entry) : State :=
  let s1 := s.modEntry e.number fun x => { x with left := none }
  match e.lane with
  | none => s1.rearmRetry e.number
  | some l =>
    match e.kind, e.pos with
    | .idUnreadable, some p => s1.stepId l e p
    | .noBooking, _ => (s1.lookupAgain l).rearmRetry e.number
    | .sealMissing, _ => s1.stepSeal l e
    | .surveyMissing, _ => s1.stepSurvey l e
    | .barrierFault, _ => (State.arrived (s1.attemptMotion l) l).rearmRetry e.number
    | _, _ => s1.rearmRetry e.number

/-! ### RETRY_AGAIN (R164) -/

/-- The raising block rearms its condition; the entry already stands OPEN under RETRY with count 0. A condition found cleared
is reported so at once. -/
def State.rearm (s : State) (l : LaneNo) (e : Entry) : State :=
  match e.kind with
  | .idUnreadable =>
    match e.pos with
    | some p =>
      let s1 := (s.modPos l p fun r => { r with misreads := 0 }).modEntry e.number fun x => { x with called := false }
      if (s1.posRec l p).cid.isSome then s1.reportCleared e.number else s1
    | none => s
  | .noBooking =>
    s.modVisit l fun v =>
      { v with
        matchState := if v.matchState = .failed then .waiting else v.matchState, searchRetried := true }
  | .sealMissing =>
    match s.sealOf l e.number with
    | none => s
    | some p =>
      let sp := (s.posRec l p).sealPart
      match s.moveOf l p with
      | none => s
      | some m =>
        let closed := decide (sp.phase = .closed ∧ sp.outcome = .missing)
        let s1 := if closed then s.modPos l p fun r => r.modSeal fun x => { x with phase := .extended } else s
        if missingSeals m.seals sp.seen = [] then (s1.closeSeal l p).reportCleared e.number
        else if closed then
          let s2 := s1.evalSeal l p
          if (s2.posRec l p).sealPart.outcome = .pending then s2.rereadSeal l p else s2
        else s
  | .surveyMissing =>
    match s.damageOf l e.number with
    | none => s
    | some p =>
      let d := (s.posRec l p).damage
      if d.graded.isSome ∨ d.held.isSome then s.surveyFound l p e.number
      else if d.phase = .closed ∧ d.outcome = .unsurveyed then
        ((s.modPos l p fun r => r.modDamage fun x => { x with phase := .extended, outcome := .pending }).evaluate l
          (damageCheck p)).rereadSurvey l p
      else s
  | .barrierFault =>
    if (s.barrier l).state = .fault then s
    else (s.reportCleared e.number).modBarrier l fun b => { b with faultMark := false }
  | _ => s

end Sys2Proof.Machine
end

