-- ==== Sys2Proof/Machine/Lines.lean ====
section
/-! DEFINITION. The lane lines: settling and polarity (R51, R52), conditioned changes and their users (R53, R56, R57, R62),
forces (R54, R55). -/

namespace Sys2Proof.Machine

/-! ### Users of a conditioned change (R53) -/

/-- A loop of the lane entry becomes occupied: a visit opens in IDLE (R27), the abandon timer stops (R39), the ID settle timer
starts at STOP LOOP with match state NOT_TRIED (R29). -/
def State.entryOccupied (s : State) (l : LaneNo) (stop : Bool) : State :=
  match (s.lane l).state with
  | .idle => if (s.lane l).closePending then s else s.openVisit l
  | .arriving | .awaitingHost | .checking =>
    let arriving := (s.lane l).state == .arriving
    s.modVisit l fun v =>
      { v with
        abandon := none
        idSettle :=
          if stop ∧ arriving ∧ v.matchState = .notTried then some (v.idSettle.getD s.store.work.idSettle)
          else v.idSettle }
  | .closed | .decided | .exiting | .trouble => s

/-- A loop of the lane entry becomes clear: with both clear the abandon timer starts (R39). -/
def State.entryCleared (s : State) (l : LaneNo) : State :=
  if s.gathers l then s.startAbandon l else s

/-- EXIT LOOP becomes occupied: the passage mark is set in EXITING and in TROUBLE that interrupted it (R42, R45). -/
def State.exitOccupied (s : State) (l : LaneNo) : State :=
  if (s.lane l).under = .exiting then s.modVisit l fun v => { v with passage := true } else s

/-- EXIT LOOP becomes clear with the passage mark set: the lower is commanded, or held back (R42, R45). -/
def State.exitCleared (s : State) (l : LaneNo) : State :=
  if (s.lane l).under = .exiting ∧ (s.visit l).any (fun v => v.passage) then
    let s1 := s.modVisit l fun v => { v with passage := false }
    if (s.lane l).state = .exiting ∧ (s.barrier l).state = .up then State.arrived (s1.lowerArm l) l
    else s1.modVisit l fun v => { v with lowerHeld := true }
  else s

/-- The loop that an input is. -/
def loopOf : Input → Option Loop
  | .arrival => some .arrival
  | .stop => some .stop
  | .exit => some .exit
  | .upSense | .downSense | .call => none

/-- The input that a loop is. -/
def inputOf : Loop → Input
  | .arrival => .arrival
  | .stop => .stop
  | .exit => .exit

/-- The stuck watch of a loop at a conditioned change (R57). -/
def State.watchLoop (s : State) (l : LaneNo) (i : Loop) (on : Bool) : State :=
  if on then
    if (s.lane l).state = .closed then s
    else s.modLane l fun x =>
      { x with stuck := x.stuck.set i { x.stuck.get i with left := some s.store.work.loopStuck } }
  else s.modLane l fun x => { x with stuck := x.stuck.set i ⟨none, false⟩ }

/-- The CALL notice (R56). -/
def State.callNotice (s : State) (l : LaneNo) : State :=
  s.queueNotice ⟨.call, laneField l ++ u8 (s.lane l).state.ctorIdx ++ u16 (s.lane l).visitNumber⟩

/-- The lane state machine's part in a conditioned change, and the CALL notice (R53, R56). -/
def State.laneUser (s : State) (l : LaneNo) (i : Input) (on : Bool) : State :=
  match i, on with
  | .arrival, true => s.entryOccupied l false
  | .stop, true => s.entryOccupied l true
  | .arrival, false | .stop, false => s.entryCleared l
  | .exit, true => s.exitOccupied l
  | .exit, false => s.exitCleared l
  | .call, true => s.callNotice l
  | .upSense, _ | .downSense, _ | .call, false => s

/-- The barrier machine's part in a conditioned change (R53, R60 to R62). -/
def State.barrierUser (s : State) (l : LaneNo) (i : Input) (on : Bool) : State :=
  match i, on with
  | .exit, true => State.arrived (s.reverseArm l) l
  | .exit, false => State.arrived (s.exitClears l) l
  | .upSense, true => State.arrived (s.senseUp l) l
  | .downSense, true => State.arrived (s.senseDown l) l
  | _, _ => s

/-- The stuck watch's part in a conditioned change of a loop (R53, R57). -/
def State.stuckUser (s : State) (l : LaneNo) (i : Input) (on : Bool) : State :=
  match loopOf i with
  | some k => s.watchLoop l k on
  | none => s

/-- A conditioned change of an input to a value is handed to the users of its line (R53): the lane state machine, the
barrier machine, the stuck watch. -/
def State.conditioned (s : State) (l : LaneNo) (i : Input) (on : Bool) : State :=
  ((s.laneUser l i on).barrierUser l i on).stuckUser l i on

/-! ### Settling (R52) -/

/-- The line record of an input changed. -/
def State.modLine (s : State) (l : LaneNo) (i : Input) (f : LineRec → LineRec) : State :=
  s.modLane l fun x => { x with lines := x.lines.set i (f (x.lines.get i)) }

/-- The line record of an input. -/
def State.line (s : State) (l : LaneNo) (i : Input) : LineRec := (s.lane l).lines.get i

/-- The polarity setting of an input: active-low. -/
def State.activeLow (s : State) (l : LaneNo) (i : Input) : Bool := (s.store.work.activeLow.get l).get i

/-- The settle time setting of an input. -/
def State.settleSteps (s : State) (l : LaneNo) (i : Input) : Nat := (s.store.work.settleSteps.get l).get i

/-- The settled value takes a new value (R52, R54): a conditioned change while no force stands, a count while one stands. -/
def State.takeSettled (s : State) (l : LaneNo) (i : Input) (on : Bool) : State :=
  let s1 := s.modLine l i fun r => { r with settled := on, pending := none }
  match (s.line l i).force with
  | none => s1.conditioned l i on
  | some _ => s1.modCounters l fun c => { c with forcedRaw := satInc c.forcedRaw }

/-- The raw level, as it now stands, is read against the settled value (R52): a settle starts, ends, or goes on. -/
def State.readRaw (s : State) (l : LaneNo) (i : Input) : State :=
  let r := s.line l i
  let on := r.raw != s.activeLow l i
  if on = r.settled then s.modLine l i fun r => { r with pending := none }
  else if r.pending.isSome then s
  else if s.settleSteps l i = 0 then s.takeSettled l i on
  else s.modLine l i fun r => { r with pending := some (s.settleSteps l i) }

/-- The pending settle of an input expires (R52). -/
def State.settleEnds (s : State) (l : LaneNo) (i : Input) : State :=
  if (s.line l i).pending.isSome then s.takeSettled l i (!(s.line l i).settled) else s

/-- The force of a line is set or removed; a change of the conditioned value is a conditioned change (R54, R55). -/
def State.setForce (s : State) (l : LaneNo) (i : Input) (f : Option Bool) : State :=
  let was := (s.line l i).value
  let s1 := s.modLine l i fun r => { r with force := f }
  let now := (s1.line l i).value
  if now = was then s1 else s1.conditioned l i now

end Sys2Proof.Machine
end

