-- ==== Sys2Proof/Machine/Link.lean ====
section
/-! DEFINITION. The command link: taking a request and answering it (R170), the commands FRAME_RECEIVED, FRAME_GAP_TIMEOUT,
UNKNOWN_KIND and NOTICE_SEND (R168 to R172). -/

namespace Sys2Proof.Machine

/-- The outcome of a command: always a next state. -/
abbrev Out := Host.Outcome State Fault Refusal

/-- An event that happens to the part: without power nothing acts. -/
def event (s : State) (f : State → State) : Out := .next (if s.power then f s else s)

/-! ### Requests (R170) -/

/-- What a request comes to: the state, the status of its reply, and the fields after it. -/
structure Ans where
  s : State
  status : Status
  data : List Byte

/-- A refusal that changes nothing. -/
def refuse (s : State) (st : Status) : Ans := ⟨s, st, []⟩

/-- OK without fields. -/
def okay (s : State) : Ans := ⟨s, .ok, []⟩

/-- A request frame is taken. With frames waiting in the receive buffer only the first of them can be taken; with none
waiting the command itself stands for the frame's arrival and taking (log 2). No request is taken without power, nor while
a RESTART waits for a settings write (R171). -/
def State.takeFrame (s : State) (f : Frame) : Option State :=
  if s.power = false ∨ s.store.restartTag.isSome then none
  else match s.link.rxBuffer with
    | [] => some s
    | g :: gs => if g = f then some { s with link := { s.link with rxBuffer := gs } } else none

/-- A request whose reply its rule forms itself, after the tests of the link (R170): tag 0, then a body that does not fit. -/
def requestLate {α : Type} (s : State) (kind : Nat) (tag : Byte) (body : List Byte) (p : Reader α)
    (rule : State → α → State) : State :=
  match s.takeFrame ⟨tag, BitVec.ofNat 8 kind, body⟩ with
  | none => s
  | some t =>
    if tag = 0 then t.reply tag (BitVec.ofNat 8 kind) .malformed []
    else match readAll p body with
      | none => t.reply tag (BitVec.ofNat 8 kind) .malformed []
      | some x => rule t x

/-- A request answered at once: the reply is formed after the notices it causes. -/
def request {α : Type} (s : State) (kind : Nat) (tag : Byte) (body : List Byte) (p : Reader α)
    (rule : State → α → Ans) : Out :=
  .next (requestLate s kind tag body p fun t x =>
    let a := rule t x
    a.s.reply tag (BitVec.ofNat 8 kind) a.status a.data)

/-- A request that names a lane: a lane outside 1 to 8 is refused with RANGE before any other test (R25). -/
def withLane (s : State) (n : Nat) (rule : LaneNo → Ans) : Ans :=
  match laneOf n with
  | none => refuse s .range
  | some l => rule l

/-- The tests that every request meets at the link come before BUSY; during a settings write the four requests that concern
it are answered BUSY (R171). -/
def busyOr (s : State) (a : Ans) : Ans := if s.store.saving.isSome then refuse s .busy else a

/-! ### Receiving (R169) -/

/-- A counter of bad frames rises by a number. -/
def Link.countBad (k : Link) (n : Nat) : Link := { k with badFrames := satAdd k.badFrames n }

/-- A whole frame is placed in the receive buffer, or counted as an overflow. -/
def Link.place (k : Link) (f : Frame) : Link :=
  if (k.rxBuffer.map Frame.size).sum + f.size ≤ Config.rxBytes then { k with rxBuffer := k.rxBuffer ++ [f] }
  else { k with overflows := satInc k.overflows }

/-- The receiver works on all the bytes it has. -/
def Link.hear (k : Link) (bs : List Byte) : Link :=
  let r := receive bs
  r.frames.foldl Link.place { (k.countBad r.bad) with rxPart := r.rest }

/-- FRAME_RECEIVED: bytes arrive on the command link (R169). -/
def execFrameReceived (bytes : List Byte) (s : State) : Out :=
  event s fun s => { s with link := s.link.hear (s.link.rxPart ++ bytes) }

/-- FRAME_GAP_TIMEOUT: a gap of more than 20 ms inside a frame discards it as bad; hunting resumes behind its marker
(R169, log 20). -/
def execFrameGapTimeout (s : State) : Out :=
  event s fun s =>
    match s.link.rxPart with
    | [] => s
    | _ :: bs => { s with link := (s.link.countBad 1).hear bs }

/-- UNKNOWN_KIND: a frame with tag 0 is answered MALFORMED, a kind outside the catalogue UNKNOWN_KIND (R170). A frame of a
kind of the catalogue is its own command and not this one. -/
def execUnknownKind (tag kind : Byte) (body : List Byte) (s : State) : Out :=
  .next <|
    if tag ≠ 0 ∧ (requestOf kind.toNat tag body).isSome then s
    else match s.takeFrame ⟨tag, kind, body⟩ with
      | none => s
      | some t => t.reply tag kind (if tag = 0 then .malformed else .unknownKind) []

/-! ### Sending (R170, R172) -/

/-- The frame of a reply. -/
def Reply.frame (r : Reply) : List Byte := encodeFrame r.tag r.kind (statusCode r.status :: r.data)

/-- The frame of a notice with the notices-lost count as the first byte of its body (R172). -/
def Notice.frame (n : Notice) (lost : Nat) : List Byte :=
  encodeFrame 0 (BitVec.ofNat 8 (0x60 + n.kind.ctorIdx)) (u8 lost ++ n.data)

/-- NOTICE_SEND: the notice that is first in the order of readiness leaves with the notices-lost count, which becomes 0
(R172). -/
def execNoticeSend (s : State) : Out :=
  event s fun s =>
    match s.link.outbox with
    | .notice n :: rest =>
      { s with link := { s.link with
        outbox := rest, lostByte := 0, sent := s.link.sent ++ [n.frame s.link.lostByte] } }
    | _ => s

end Sys2Proof.Machine
end

