-- ==== Sys2Proof/Machine/Bookings.lean ====
section
/-! DEFINITION. The commands of the Booking Unit (spec/01): BOOK, AMEND, CANCEL, GET_BOOKING, GET_WINDOWS, SET_CAPACITY,
SET_CLOCK, GET_CLOCK, GATE_CLOCK_SECOND. -/

namespace Sys2Proof.Machine

/-! ### BOOK (R2 to R5) -/

/-- A list of declared seals is well formed: at most two, well-formed texts, no two equal. -/
def sealsOk (xs : List Text) : Bool := xs.length ≤ 2 && xs.all sealOk && decide xs.Nodup

/-- A move of a BOOK request is well formed (R2). -/
def MoveReq.formed (m : MoveReq) : Bool :=
  (match m.cid with
    | some t => m.kind != .pickEmpty && cidOk t
    | none => m.kind == .pickEmpty)
    && (if m.kind = .deliverFull then sealsOk m.seals else m.seals.isEmpty)
    && (m.released.isNone || m.kind == .pickImport)
    && (m.kind.bringIn || m.known.getD 0 == 0)
    && (match m.stop with | some (b, _) => blockOk b | none => false)

/-- A request's fields are well formed (R2). -/
def BookReq.formed (r : BookReq) : Bool := r.plate.all plateOk && r.moves.all MoveReq.formed

/-- A yard row in its range. -/
def rowInRange (n : Nat) : Bool := 1 ≤ n && n ≤ 99

/-- A booking number in its range. -/
def numberInRange (n : Nat) : Bool := 1 ≤ n && n ≤ Config.bookingNumberMax

/-- A request's values lie in their ranges (R2). -/
def BookReq.inRange (r : BookReq) : Bool :=
  numberInRange r.number && r.window < Config.windowCount
    && r.moves.all fun m => m.known.getD 0 ≤ 1000 && (m.stop.all fun x => rowInRange x.2)

/-- The move entry a request's move makes. -/
def MoveReq.move (m : MoveReq) : Move where
  kind := m.kind
  length := m.length
  cid := m.cid
  seals := m.seals
  known := m.known.getD 0
  block := (m.stop.map (·.1)).getD []
  row := (m.stop.map (·.2)).getD 0
  released := m.released.getD false

/-- The move list can describe one truck's visit (R3). -/
def movesOk (ms : List Move) : Bool :=
  let brings := ms.filter fun m => m.kind.bringIn
  let picks := ms.filter fun m => !m.kind.bringIn
  1 ≤ ms.length && ms.length ≤ 2
    && (brings.length < 2 || brings.all fun m => m.length == .l20)
    && (brings.isEmpty || picks.length ≤ 1)
    && decide (ms.filterMap (·.cid)).Nodup

/-- The container IDs of the bring-in moves. -/
def bringCids (ms : List Move) : List Text := (ms.filter fun m => m.kind.bringIn).filterMap (·.cid)

/-- The container IDs of all moves. -/
def allCids (ms : List Move) : List Text := ms.filterMap (·.cid)

/-- Two move lists share a container that one of them brings in (R3). -/
def movesCollide (a b : List Move) : Bool :=
  ((bringCids a).any fun t => (allCids b).contains t) || (bringCids b).any fun t => (allCids a).contains t

/-- The request collides with a booking of the table (R3). -/
def BookUnit.collides (b : BookUnit) (n : Nat) (ms : List Move) : Bool :=
  b.table.any fun k =>
    k.number == n || ((k.state == .opened || k.state == .inLane) && movesCollide ms k.moves)

/-- The record BOOK makes (R4). -/
def newBooking (n w : Nat) (plate : Option Text) (ms : List Move) : Booking :=
  ⟨n, .opened, w, plate, ms, movesUnits ms, none, false, none⟩

/-- A record joins the table and its units the window (R4). -/
def BookUnit.create (b : BookUnit) (k : Booking) : BookUnit :=
  { b with table := b.table ++ [k] }.addBooked k.window k.units

/-- The table with room for one more record (R4, R5). -/
def BookUnit.room (b : BookUnit) : Option BookUnit :=
  if b.table.length < Config.bookingMax then some b else b.reclaim

/-- The rule of BOOK (R2 to R5). -/
def ruleBook (s : State) (r : BookReq) : Ans :=
  let ms := r.moves.map MoveReq.move
  let w := s.book.window r.window
  if r.formed = false then refuse s .malformed
  else if r.inRange = false then refuse s .range
  else if movesOk ms = false then refuse s .malformed
  else if s.book.collides r.number ms then refuse s .duplicate
  else if w.expired then refuse s .range
  else if w.takes (movesUnits ms) = false then refuse s .noCapacity
  else match s.book.room with
    | none => refuse s .full
    | some b =>
      let b1 := b.create (newBooking r.number r.window r.plate ms)
      ⟨{ s with book := b1 }, .ok, u32 r.number ++ u8 (movesUnits ms) ++ u16 (b1.window r.window).free⟩

/-- BOOK (R4). -/
def execBook (tag : Byte) (body : List Byte) (s : State) : Out := request s 0x01 tag body readBook ruleBook

/-! ### AMEND (R9 to R11) -/

/-- The request carries a change. -/
def AmendReq.any (r : AmendReq) : Bool :=
  r.window.isSome || r.plate.isSome || r.stop.isSome || r.known.isSome || r.seals.isSome || r.release.isSome

/-- The changes fit the booking's moves and are well formed (R9 test 2). DESIGN CHOICE, unsafe (log 43): a new list of more than
two declared seals, or of two equal texts, is not well formed, as in a BOOK request (R2); R9 names no status for it. -/
def AmendReq.formed (r : AmendReq) (ms : List Move) : Bool :=
  r.any
    && (r.plate.all fun p => p.all plateOk)
    && (r.stop.all fun x => (moveAt ms x.1).isSome && blockOk x.2.1)
    && (r.known.all fun x => (moveAt ms x.1).any fun m => m.kind.bringIn)
    && (r.seals.all fun x => ((moveAt ms x.1).any fun m => m.kind == .deliverFull) && sealsOk x.2)
    && (r.release.all fun x => (moveAt ms x.1).any fun m => m.kind == .pickImport)

/-- The values lie in their ranges (R9 test 3). -/
def AmendReq.inRange (r : AmendReq) : Bool :=
  (r.window.all fun w => w < Config.windowCount) && (r.stop.all fun x => rowInRange x.2.2)
    && r.known.all fun x => x.2 ≤ 1000

/-- The moves with the one of a place changed. -/
def modMove (ms : List Move) (place : Nat) (f : Move → Move) : List Move := ms.modify (place - 1) f

/-- The moves with the changes of a request made. -/
def AmendReq.moves (r : AmendReq) (ms : List Move) : List Move :=
  let m1 := match r.stop with | some (n, b, row) => modMove ms n fun m => { m with block := b, row := row } | none => ms
  let m2 := match r.known with | some (n, k) => modMove m1 n fun m => { m with known := k } | none => m1
  let m3 := match r.seals with | some (n, xs) => modMove m2 n fun m => { m with seals := xs } | none => m2
  match r.release with | some (n, x) => modMove m3 n fun m => { m with released := x } | none => m3

/-- The changes other than the window are made in the record. -/
def BookUnit.amend (b : BookUnit) (r : AmendReq) : BookUnit :=
  b.modBooking r.number fun k => { k with plate := r.plate.getD k.plate, moves := r.moves k.moves }

/-- A window change moves the booking between windows (R10). -/
def BookUnit.moveTo (b : BookUnit) (k : Booking) (w : Nat) : BookUnit :=
  if w = k.window then b
  else ((b.subBooked k.window k.units).addBooked w k.units).modBooking k.number fun x => { x with window := w }

/-- What R10 refuses a window change with. -/
def BookUnit.refusesMove (b : BookUnit) (k : Booking) (w : Nat) : Option Status :=
  if w = k.window then none
  else if (b.window w).expired then some .range
  else if (b.window w).takes k.units then none
  else some .noCapacity

/-- Amended declared seals reach the visit that holds the claim (R97). -/
def State.amendSeals (s : State) (l : LaneNo) (place : Nat) : State :=
  match bothPos.find? fun p => (s.posRec l p).sealPart.move.any fun m => m.1 == place with
  | some p => s.evalSeal l p true
  | none => s

/-- The changed fields of an IN_LANE booking reach the lane that holds it (R11). -/
def State.amendLane (s : State) (r : AmendReq) (k : Booking) : State :=
  match k.state, k.claim with
  | .inLane, some (l, n) =>
    if s.undecided l (some n) then
      (match r.seals with | some (place, _) => s.amendSeals l place | none => s).settle l
    else s
  | _, _ => s

/-- The rule of AMEND (R9, R10, R11). -/
def ruleAmend (s : State) (r : AmendReq) : Ans :=
  match s.book.find r.number with
  | none => refuse s .notFound
  | some k =>
    if r.formed k.moves = false then refuse s .malformed
    else if r.inRange = false then refuse s .range
    else match k.state with
      | .admitted | .cancelled | .noShow => refuse s .wrongState
      | .inLane =>
        if r.window.isSome then refuse s .wrongState
        else okay ({ s with book := s.book.amend r }.amendLane r k)
      | .opened =>
        match r.window with
        | none => okay { s with book := s.book.amend r }
        | some w =>
          match s.book.refusesMove k w with
          | some st => refuse s st
          | none => okay { s with book := (s.book.moveTo k w).amend r }

/-- AMEND (R9). -/
def execAmend (tag : Byte) (body : List Byte) (s : State) : Out := request s 0x02 tag body readAmend ruleAmend

/-! ### CANCEL and the reports (R12, R13, R8) -/

/-- The rule of CANCEL (R12). -/
def ruleCancel (s : State) (n : Nat) : Ans :=
  match s.book.find n with
  | none => refuse s .notFound
  | some k =>
    if k.state = .opened then
      okay { s with book :=
        ((s.book.subBooked k.window k.units).modBooking n fun x => { x with state := .cancelled }).finalise n }
    else refuse s .wrongState

/-- CANCEL (R12). -/
def execCancel (tag : Byte) (body : List Byte) (s : State) : Out := request s 0x03 tag body readU32 ruleCancel

/-- A move as GET_BOOKING reports it. -/
def moveFields (m : Move) : List Byte :=
  u8 m.kind.ctorIdx ++ u8 m.length.ctorIdx ++ optField textField m.cid ++ listField textField m.seals ++ u16 m.known
    ++ textField m.block ++ u8 m.row
    ++ optField (fun r : Bool => if r then [0] else [1]) (if m.kind = .pickImport then some m.released else none)

/-- A booking as GET_BOOKING reports it (R13). DESIGN CHOICE, unsafe (log 21): the claimed lane and visit number, which the manual
names as two fields, stand behind one presence mark. -/
def bookingFields (k : Booking) : List Byte :=
  u32 k.number ++ u8 k.state.ctorIdx ++ u8 k.window ++ optField textField k.plate ++ listField moveFields k.moves
    ++ u8 k.units ++ flag k.moved ++ optField (fun x : LaneNo × Nat => laneField x.1 ++ u16 x.2) k.claim
    ++ optField u16 k.admittedMinute

/-- The rule of GET_BOOKING (R13). -/
def ruleGetBooking (s : State) (n : Nat) : Ans :=
  match s.book.find n with
  | none => refuse s .notFound
  | some k => ⟨s, .ok, bookingFields k⟩

/-- GET_BOOKING (R13). -/
def execGetBooking (tag : Byte) (body : List Byte) (s : State) : Out := request s 0x04 tag body readU32 ruleGetBooking

/-- A window as GET_WINDOWS reports it (R8). -/
def windowFields (n : Nat) (w : Window) : List Byte :=
  u8 n ++ u16 w.capacity ++ u16 w.booked ++ u16 w.admitted ++ flag w.expired ++ flag w.overFlag

/-- The numbers from a first to a last. -/
def numbersFrom (first last : Nat) : List Nat := (List.range (last + 1 - first)).map (· + first)

/-- The rule of GET_WINDOWS (R8). -/
def ruleGetWindows (s : State) (r : Nat × Nat) : Ans :=
  if r.2 < r.1 ∨ Config.windowCount ≤ r.1 ∨ Config.windowCount ≤ r.2 ∨ Config.dayWindows < r.2 + 1 - r.1 then
    refuse s .range
  else ⟨s, .ok, listField (fun n => windowFields n (s.book.window n)) (numbersFrom r.1 r.2)⟩

/-- GET_WINDOWS (R8). -/
def execGetWindows (tag : Byte) (body : List Byte) (s : State) : Out :=
  request s 0x05 tag body (readPair readU8 readU8) ruleGetWindows

/-- The windows of a range take a capacity (R7). -/
def BookUnit.setCapacity (b : BookUnit) (first last v : Nat) : BookUnit :=
  { b with windows := b.windows.mapIdx fun i x =>
      if first ≤ i ∧ i ≤ last then Window.evalOver { x with capacity := v } else x }

/-- The rule of SET_CAPACITY (R7). -/
def ruleSetCapacity (s : State) (r : CapacityReq) : Ans :=
  if r.last < r.first ∨ Config.windowCount ≤ r.first ∨ Config.windowCount ≤ r.last then refuse s .range
  else ⟨{ s with book := s.book.setCapacity r.first r.last (min 255 r.value) },
    if 255 < r.value then .clamped else .ok, []⟩

/-- SET_CAPACITY (R7). -/
def execSetCapacity (tag : Byte) (body : List Byte) (s : State) : Out :=
  request s 0x06 tag body readCapacity ruleSetCapacity

/-! ### The Gate Clock (R14 to R18) -/

/-- The clock takes a setting; the second begins anew. -/
def State.setTime (s : State) (r : ClockReq) : State := { s with clock := ⟨r.day, r.minute, r.second, true⟩, phase := 0 }

/-- The rule of SET_CLOCK (R15). DESIGN CHOICE, unsafe (log 42): on a valid clock, the same day number with the same minute, which
R15 gives no case of its own, takes the second and runs no expiry test. -/
def ruleSetClock (s : State) (r : ClockReq) : Ans :=
  if 1439 < r.minute ∨ 59 < r.second then refuse s .range
  else if s.clock.valid = false then okay (s.setTime r).expiryTest
  else if r.day < s.clock.day ∨ s.clock.day + 1 < r.day then refuse s .range
  else if r.day = s.clock.day then
    if s.clock.minute < r.minute then okay (s.setTime r).expiryTest else okay (s.setTime r)
  else okay ((s.rollover r.day).setTime r).expiryTest

/-- SET_CLOCK (R15). -/
def execSetClock (tag : Byte) (body : List Byte) (s : State) : Out := request s 0x07 tag body readClock ruleSetClock

/-- The rule of GET_CLOCK (R16). -/
def ruleGetClock (s : State) (_ : Unit) : Ans :=
  ⟨s, .ok, u16 s.clock.day ++ u16 s.clock.minute ++ u8 s.clock.second ++ flag s.clock.valid⟩

/-- GET_CLOCK (R16). -/
def execGetClock (tag : Byte) (body : List Byte) (s : State) : Out := request s 0x08 tag body readNothing ruleGetClock

/-- The clock advances by one second (R14). -/
def State.clockSecond (s : State) : State :=
  let c := s.clock
  if c.valid = false then s
  else if c.second < 59 then { s with clock := { c with second := c.second + 1 } }
  else if c.minute < 1439 then { s with clock := { c with second := 0, minute := c.minute + 1 } }.expiryTest
  else
    let day := min 65535 (c.day + 1)
    { s with clock := { c with second := 0, minute := 0, day := day } }.rollover day

/-- GATE_CLOCK_SECOND (R14). -/
def execGateClockSecond (s : State) : Out := event s State.clockSecond

end Sys2Proof.Machine
end

