-- ==== Sys2Proof/Machine/Visits.lean ====
section
/-! DEFINITION. The lane requests and timers (spec/02): OPEN_LANE, CLOSE_LANE, RESET_LANE, GET_LANE, KEYED_BOOKING,
LOOKUP_ANSWER, ID_SETTLE_EXPIRY, LOOKUP_TIMEOUT, ABANDON_EXPIRY. -/

namespace Sys2Proof.Machine

/-! ### OPEN_LANE, CLOSE_LANE (R47, R48) -/

/-- The stuck watches of the loops occupied as the lane leaves CLOSED start (R57). -/
def State.startWatches (s : State) (l : LaneNo) : State :=
  allLoops.foldl (fun t i => if t.input l (inputOf i) then t.watchLoop l i true else t) s

/-- A CLOSED lane is put into service (R47). -/
def State.openLane (s : State) (l : LaneNo) : State :=
  let s1 := (s.changeLane l .idle .laneOpened).modLane l fun x => { x with lamp := .red, closePending := false }
  let s2 := s1.startWatches l
  let s3 := if (s2.barrier l).state = .down then s2 else State.arrived (s2.lowerArm l) l
  s3.takeUpIdle l

/-- The rule of OPEN_LANE (R47). -/
def ruleOpenLane (s : State) (n : Nat) : Ans :=
  withLane s n fun l =>
    let x := s.lane l
    if s.gate ≠ .opened ∨ s.clock.valid = false ∨ (x.state ≠ .closed ∧ x.closePending = false) then refuse s .wrongState
    else if x.state = .closed then okay (s.openLane l)
    else okay (s.modLane l fun x => { x with closePending := false })

/-- OPEN_LANE (R47). -/
def execOpenLane (tag : Byte) (body : List Byte) (s : State) : Out := request s 0x09 tag body readU8 ruleOpenLane

/-- A lane is taken out of service (R48). -/
def State.closeLane (s : State) (l : LaneNo) : State :=
  match (s.lane l).state with
  | .idle => s.enterClosed l
  | .closed => s
  | _ => s.modLane l fun x => { x with closePending := true }

/-- The rule of CLOSE_LANE (R48). -/
def ruleCloseLane (s : State) (n : Nat) : Ans := withLane s n fun l => okay (s.closeLane l)

/-- CLOSE_LANE (R48). -/
def execCloseLane (tag : Byte) (body : List Byte) (s : State) : Out := request s 0x0A tag body readU8 ruleCloseLane

/-! ### RESET_LANE (R49) -/

/-- The entries a reset discards: OPEN and LOGGED ones of the lane that name its visit or no visit. -/
def Entry.resetWith (e : Entry) (l : LaneNo) (visit : Option Nat) : Bool :=
  e.lane == some l && (e.state == .opened || e.state == .logged) && (e.visit == none || e.visit == visit)

/-- The lane's present state and visit end (R49). The barrier's arrival at DOWN that the lower may bring at once is not
acted on: the lane's state is ending. -/
def State.resetLane (s : State) (l : LaneNo) : State :=
  let visit := (s.visit l).map Visit.number
  let s1 := (s.release l .turned).returnBay l
  let s2 := s1.modSign l Sign.clear
  let s3 := (s2.lowerArm l).1
  let s4 := s3.discard l fun e => e.resetWith l visit
  let s5 := { s4 with exc := { s4.exc with unrecorded := s4.exc.unrecorded.set l false } }
  let s6 := s5.modLane l fun x =>
    { x with visit := none, interrupted := none, noted := ⟨false, false, false⟩, lamp := .red }
  s6.enterIdle l .reset

/-- The rule of RESET_LANE (R49). -/
def ruleResetLane (s : State) (n : Nat) : Ans :=
  withLane s n fun l => if (s.lane l).state = .closed then refuse s .wrongState else okay (s.resetLane l)

/-- RESET_LANE (R49). -/
def execResetLane (tag : Byte) (body : List Byte) (s : State) : Out := request s 0x0B tag body readU8 ruleResetLane

/-! ### GET_LANE (R50, R66, R85, R86, R114, R116) -/

/-- An enumerated value by its number. -/
def watchField (w : Watch) : List Byte := u8 w.action.ctorIdx ++ u8 w.reason

/-- A seen or unplaced seal. -/
def seenField (x : SeenSeal) : List Byte := textField x.text ++ u8 x.source.ctorIdx

/-- The seal part as GET_LANE reports it (R86). -/
def sealPartFields (p : SealPart) : List Byte :=
  listField seenField p.seen ++ optField (fun m : Nat × Basis => u8 m.1 ++ u8 m.2.ctorIdx) p.move
    ++ u8 p.outcome.ctorIdx ++ u8 p.phase.ctorIdx ++ flag p.mismatchMark ++ flag p.unexpectedMark ++ flag p.missingMark

/-- A defect list (R114). -/
def defectField (d : Defect) : List Byte := u8 d.panel.ctorIdx ++ u8 d.type.ctorIdx ++ u8 d.depth ++ u16 d.area

/-- The damage part as GET_LANE reports it (R103, R114). -/
def damagePartFields (p : DamagePart) : List Byte :=
  optField (fun x : Survey => listField defectField x.defects) p.held
    ++ optField (fun x : Survey => listField defectField x.defects) p.graded
    ++ u16 p.sums.left ++ u16 p.sums.right ++ u16 p.sums.frontEnd ++ u16 p.sums.doorEnd ++ u16 p.sums.roof
    ++ u16 p.index ++ u16 p.excess ++ flag p.breach ++ u16 p.knownUsed ++ u8 p.outcome.ctorIdx ++ u8 p.phase.ctorIdx
    ++ flag p.notedMark ++ flag p.severeMark ++ flag p.missingMark ++ u8 p.survived

/-- A position as GET_LANE reports it (R85, R86, R114). -/
def posFields (r : PosRec) : List Byte :=
  optField textField r.cid ++ flag r.spanning ++ u8 r.misreads ++ flag r.unreadable ++ flag r.conflict ++ flag r.mismatch
    ++ optField watchField r.watch ++ sealPartFields r.sealPart ++ damagePartFields r.damage

/-- A position record, present once it has been made. -/
def posField' (r : PosRec) : List Byte := optField posFields (if r.made then some r else none)

/-- What a visit has read (section 2.2), as GET_LANE reports it; that the unplaced seals (R86) stand before the keyed number is log
44's choice. -/
def visitRead (v : Visit) : List Byte :=
  u16 v.number ++ optField textField v.plate ++ optField watchField v.plateWatch ++ posField' v.front ++ posField' v.rear
    ++ listField seenField v.unplaced ++ optField u32 v.keyed

/-- What a visit's search, verdict and delivery have come to, as GET_LANE reports it. -/
def visitProgress (v : Visit) : List Byte :=
  u8 v.matchState.ctorIdx ++ optField u32 v.claimed ++ optField (fun t : Timeliness => u8 t.ctorIdx) v.timeliness
    ++ optField u32 v.refused ++ optField (fun d : Verdict => u8 d.ctorIdx) v.verdict ++ u8 v.bayStep.ctorIdx
    ++ optField u8 v.bay ++ flag v.waiting ++ flag v.raiseCommanded ++ flag v.passage ++ flag v.lowerHeld

/-- The running timers of a visit, as GET_LANE reports them. -/
def visitTimers (v : Visit) : List Byte :=
  optField u16 v.idSettle ++ optField u16 v.lookup ++ optField u16 v.abandon ++ optField u16 v.sealWait
    ++ optField u16 v.surveyWait

/-- The visit as GET_LANE reports it (R50, R116); that R116's two marks stand at its end is log 44's choice. -/
def visitFields (v : Visit) : List Byte :=
  visitRead v ++ visitProgress v ++ visitTimers v ++ checksFields v.checks ++ flag v.turnAwayMark ++ flag v.releaseMark

/-- An input as GET_LANE reports it (R66): the raw level as the polarity reads it, the settled value, the force, a pending
settle. The values are numbered as R168 says: active 0, inactive 1; force none 0, ON 1, OFF 2 (R51). -/
def inputFields (activeLow : Bool) (r : LineRec) : List Byte :=
  lineField (r.raw != activeLow) ++ lineField r.settled
    ++ (match r.force with | none => [0] | some true => [1] | some false => [2]) ++ flag r.pending.isSome

/-- The barrier as GET_LANE reports it (R66), with the drive (on 0, off 1) and the lamp (green 0, red 1), numbered as R168 says
in the order of the table of section 3.1. -/
def barrierFields (b : Barrier) (lamp : Lamp) : List Byte :=
  optField (fun m : Motion => u8 m.ctorIdx) b.pending ++ flag b.faultMark ++ flag b.exitHold ++ optField u16 b.left
    ++ driveField b.drive ++ u8 lamp.ctorIdx

/-- The report of GET_LANE (R50). DESIGN CHOICE, unsafe (log 44): where the fields that R66, R85, R86, R114 and R116 add stand among
R50's own, which no rule says. Those of R66 (lines, barrier, watches) stand here, before the visit; those of R85, R86 and R114 in
`posFields`, and R86's unplaced seals before the keyed number in `visitRead`; those of R116 within each check in `checkFields`
and at the end of `visitFields`. -/
def laneReport (s : State) (l : LaneNo) : List Byte :=
  let x := s.lane l
  u8 x.state.ctorIdx ++ optField (fun st : LaneState => u8 st.ctorIdx) x.interrupted ++ flag x.closePending
    ++ flag (s.exc.unrecorded.get l) ++ u8 x.barrier.state.ctorIdx ++ allInputs.flatMap (fun i => lineField (s.input l i))
    ++ allInputs.flatMap (fun i => inputFields (s.activeLow l i) (s.line l i)) ++ barrierFields x.barrier x.lamp
    ++ allLoops.flatMap (fun i => flag (x.stuck.get i).left.isSome ++ flag (x.stuck.get i).reported)
    ++ optField visitFields x.visit

/-- The rule of GET_LANE (R50): the report, then every changed mark of the visit is cleared. -/
def ruleGetLane (s : State) (n : Nat) : Ans :=
  withLane s n fun l =>
    ⟨s.modVisit l fun v => { v with checks := v.checks.clearMarks }, .ok, laneReport s l⟩

/-- GET_LANE (R50). -/
def execGetLane (tag : Byte) (body : List Byte) (s : State) : Out := request s 0x0C tag body readU8 ruleGetLane

/-! ### KEYED_BOOKING, LOOKUP_ANSWER (R33, R37) -/

/-- The keyed number is recorded. -/
def State.recordKeyed (s : State) (l : LaneNo) (n : Nat) : State := s.modVisit l fun v => { v with keyed := some n }

/-- The rule of KEYED_BOOKING (R37). -/
def ruleKeyed (s : State) (r : Nat × Nat) : Ans :=
  withLane s r.1 fun l =>
    if numberInRange r.2 = false then refuse s .range
    else match (s.lane l).state, s.visit l with
      | .arriving, some _ | .awaitingHost, some _ => okay ((s.recordKeyed l r.2).tryMatch l)
      | .trouble, some v =>
        match v.matchState with
        | .notTried | .waiting => okay (s.recordKeyed l r.2)
        | .failed => okay ((s.recordKeyed l r.2).setMatch l .waiting)
        | .looking | .claimed => refuse s .wrongState
      | _, _ => refuse s .wrongState

/-- KEYED_BOOKING (R37). -/
def execKeyedBooking (tag : Byte) (body : List Byte) (s : State) : Out :=
  request s 0x0D tag body (readPair readU8 readU32) ruleKeyed

/-- The rule of LOOKUP_ANSWER (R33). -/
def ruleAnswer (s : State) (r : AnswerReq) : Ans :=
  withLane s r.lane fun l =>
    if r.number.any fun n => !numberInRange n then refuse s .range
    else if (s.visit l).any fun v => v.number == r.visit && v.matchState == .looking then
      match r.number with
      | some n => okay ((s.endLookup l).claimBooking l n)
      | none => okay (s.noBooking l 1)
    else refuse s .tooLate

/-- LOOKUP_ANSWER (R33). -/
def execLookupAnswer (tag : Byte) (body : List Byte) (s : State) : Out := request s 0x0E tag body readAnswer ruleAnswer

/-! ### Timers (R29, R34, R39) -/

/-- A lane timer is running. -/
def State.running (s : State) (l : LaneNo) (f : Visit → Option Nat) : Bool := (s.visit l).any fun v => (f v).isSome

/-- ID_SETTLE_EXPIRY (R29): the match is tried. -/
def execIdSettleExpiry (l : LaneNo) (s : State) : Out :=
  event s fun s => if s.running l Visit.idSettle then s.tryMatch l else s

/-- LOOKUP_TIMEOUT (R34): the lookup ends and NO_BOOKING is raised, detail 2. -/
def execLookupTimeout (l : LaneNo) (s : State) : Out :=
  event s fun s => if s.running l Visit.lookup then s.noBooking l 2 else s

/-- ABANDON_EXPIRY (R39): the visit is abandoned. -/
def execAbandonExpiry (l : LaneNo) (s : State) : Out :=
  event s fun s => if s.running l Visit.abandon then s.abandonVisit l else s

end Sys2Proof.Machine
end

