-- ==== Sys2Proof/Machine/Inputs.lean ====
section
/-! DEFINITION. The commands of the lane lines and the barrier (spec/03): FORCE_LINE, UNFORCE_LINE, RAW_LEVEL_CHANGE,
SETTLE_EXPIRY, LOOP_STUCK_EXPIRY, RAISE_TIMER_EXPIRY, LOWER_TIMER_EXPIRY. -/

namespace Sys2Proof.Machine

/-- A request that names a line: one of the six inputs, or RANGE (R54). -/
def withInput (s : State) (i : Option Input) (rule : Input → Ans) : Ans :=
  match i with
  | none => refuse s .range
  | some i => rule i

/-- The rule of FORCE_LINE (R54). -/
def ruleForce (s : State) (r : Nat × Option Input × Bool) : Ans :=
  withLane s r.1 fun l => withInput s r.2.1 fun i => okay (s.setForce l i (some r.2.2))

/-- FORCE_LINE (R54). -/
def execForceLine (tag : Byte) (body : List Byte) (s : State) : Out := request s 0x0F tag body readForce ruleForce

/-- The rule of UNFORCE_LINE (R55). -/
def ruleUnforce (s : State) (r : Nat × Option Input) : Ans :=
  withLane s r.1 fun l => withInput s r.2 fun i => okay (s.setForce l i none)

/-- UNFORCE_LINE (R55). -/
def execUnforceLine (tag : Byte) (body : List Byte) (s : State) : Out := request s 0x10 tag body readUnforce ruleUnforce

/-- The raw level of an input stands at a level. -/
def State.setRaw (s : State) (l : LaneNo) (i : Input) (level : Bool) : State :=
  s.modLine l i fun r => { r with raw := level }

/-- RAW_LEVEL_CHANGE (R52). The pin follows the roadside with or without power; without power nothing acts on it. -/
def execRawLevelChange (l : LaneNo) (i : Input) (level : Bool) (s : State) : Out :=
  .next <|
    if (s.line l i).raw = level then s
    else if s.power then (s.setRaw l i level).readRaw l i
    else s.setRaw l i level

/-- SETTLE_EXPIRY (R52). -/
def execSettleExpiry (l : LaneNo) (i : Input) (s : State) : Out := event s fun s => s.settleEnds l i

/-- The detail value that names a loop (R57). -/
def loopDetail : Loop → Nat
  | .arrival => 1
  | .stop => 2
  | .exit => 3

/-- The stuck watch of a loop expires (R57): LOOP_FAULT is raised and the reported mark set. -/
def State.loopStuck (s : State) (l : LaneNo) (i : Loop) : State :=
  (s.raiseVisit .loopFault l none (loopDetail i)).1.modLane l fun x => { x with stuck := x.stuck.set i ⟨none, true⟩ }

/-- LOOP_STUCK_EXPIRY (R57). -/
def execLoopStuckExpiry (l : LaneNo) (i : Loop) (s : State) : Out :=
  event s fun s => if ((s.lane l).stuck.get i).left.isSome then s.loopStuck l i else s

/-- RAISE_TIMER_EXPIRY (R63). -/
def execRaiseTimerExpiry (l : LaneNo) (s : State) : Out :=
  event s fun s =>
    if (s.barrier l).state = .raising ∧ (s.barrier l).left.isSome then s.motionFailed l .raise else s

/-- LOWER_TIMER_EXPIRY (R63). -/
def execLowerTimerExpiry (l : LaneNo) (s : State) : Out :=
  event s fun s =>
    if (s.barrier l).state = .lowering ∧ (s.barrier l).left.isSome then s.motionFailed l .lower else s

end Sys2Proof.Machine
end

