-- ==== Sys2Proof/Machine/Reads.lean ====
section
/-! DEFINITION. The reads and waits of a visit (spec/04, 05, 06): PLATE_READ, ID_READ, SEAL_READ, SEAL_WAIT_EXPIRY, SURVEY,
SURVEY_WAIT_EXPIRY. -/

namespace Sys2Proof.Machine

/-- A read is taken into the visit of a lane, or answered NOT_APPLIED (R38). -/
def takenRead (s : State) (l : LaneNo) (rule : Unit → Ans) : Ans :=
  if (s.lane l).takesReads then rule () else refuse s .notApplied

/-! ### PLATE_READ (R68) -/

/-- A plate is recorded; a changed one runs the watch test (R68). -/
def State.recordPlate (s : State) (l : LaneNo) (t : Text) : State :=
  if (s.visit l).any fun v => v.plate == some t then s
  else (s.modVisit l fun v => { v with plate := some t }).watchTest l .plate

/-- The rule of PLATE_READ (R68). The one read result is RECORDED, code 0. -/
def rulePlate (s : State) (r : Nat × Text) : Ans :=
  withLane s r.1 fun l =>
    if plateOk r.2 = false then refuse s .malformed
    else takenRead s l fun _ =>
      if s.isClaimed l then refuse s .notApplied
      else ⟨(s.recordPlate l r.2).settle l, .ok, [0]⟩

/-- PLATE_READ (R68). -/
def execPlateRead (tag : Byte) (body : List Byte) (s : State) : Out :=
  request s 0x11 tag body (readPair readU8 readText) rulePlate

/-! ### ID_READ (R69 to R74) -/

/-- The rule of ID_READ (R69, R71). -/
def ruleIdRead (s : State) (r : IdReq) : Ans :=
  withLane s r.lane fun l =>
    if textOk 11 11 r.text = false then refuse s .malformed
    else takenRead s l fun _ =>
      let t := if cidOk r.text then s.takeId l r.text r.pos else (s.misread l r.pos.charged, .misread)
      ⟨t.1.settle l, .ok, u8 t.2.ctorIdx⟩

/-- ID_READ (R69). -/
def execIdRead (tag : Byte) (body : List Byte) (s : State) : Out := request s 0x12 tag body readId ruleIdRead

/-! ### SEAL_READ (R87, R88, R90) -/

/-- The results of a seal read (R87). -/
inductive SealResult where
  | added | held | duplicate | kept
deriving DecidableEq, Repr

/-- The reply to a seal read taken. -/
def sealReply (s : State) (r : SealResult) : Ans := ⟨s, .ok, u8 r.ctorIdx⟩

/-- The seen seals of a position. -/
def State.setSeen (s : State) (l : LaneNo) (p : Pos) (xs : List SeenSeal) : State :=
  s.modPos l p fun r => r.modSeal fun x => { x with seen := xs }

/-- The position that a seal read or survey naming a position is for: REAR of a spanning box is FRONT (R88, R90, R101). -/
def State.spanPos (s : State) (l : LaneNo) (p : Pos) : Pos :=
  if p = .rear ∧ (s.posRec l .rear).spanning then .front else p

/-- A seal read before the claim (R88); no position is the unplaced list. -/
def sealBefore (s : State) (l : LaneNo) (p : Option Pos) (x : SeenSeal) : Ans :=
  match p with
  | some p =>
    match addSeal (s.posRec l p).sealPart.seen x with
    | none => refuse s .full
    | some (true, xs) => sealReply ((s.setSeen l p xs).countDuplicate l) .duplicate
    | some (false, xs) => sealReply ((s.makePos l p).setSeen l p xs) .added
  | none =>
    match addSeal (((s.visit l).map Visit.unplaced).getD []) x with
    | none => refuse s .full
    | some (true, xs) => sealReply ((s.modVisit l fun v => { v with unplaced := xs }).countDuplicate l) .duplicate
    | some (false, xs) => sealReply (s.modVisit l fun v => { v with unplaced := xs }) .held

/-- A seal read after the claim, for a position with a move (R90). -/
def sealAfter (s : State) (l : LaneNo) (p : Pos) (x : SeenSeal) : Ans :=
  let sp := (s.posRec l p).sealPart
  match addSeal sp.seen x with
  | none => refuse s .full
  | some (true, xs) => sealReply ((s.setSeen l p xs).countDuplicate l) .duplicate
  | some (false, xs) =>
    let s1 := s.setSeen l p xs
    if sp.final then sealReply s1 .kept else sealReply ((s1.evalSeal l p).settle l) .added

/-- The position a read names; none for UNKNOWN. -/
def ReadPos.named : ReadPos → Option Pos
  | .front => some .front
  | .rear => some .rear
  | .whole | .unknown => none

/-- The rule of SEAL_READ (R87). -/
def ruleSealRead (s : State) (r : SealReq) : Ans :=
  withLane s r.lane fun l =>
    if r.pos = .whole ∨ (r.source = .clerk ∧ r.pos = .unknown) ∨ sealOk r.text = false then refuse s .malformed
    else takenRead s l fun _ =>
      let x : SeenSeal := ⟨r.text, r.source⟩
      let p := r.pos.named.map (s.spanPos l)
      if s.isClaimed l then
        match p.orElse fun _ => s.sealPlace l r.text with
        | none => refuse s .notApplied
        | some p => if (s.moveOf l p).isSome then sealAfter s l p x else refuse s .notApplied
      else sealBefore s l p x

/-- SEAL_READ (R87). -/
def execSealRead (tag : Byte) (body : List Byte) (s : State) : Out := request s 0x13 tag body readSeal ruleSealRead

/-! ### SEAL_WAIT_EXPIRY (R76, R94) -/

/-- The missing boxes are given empty positions, and ID_UNREADABLE is raised for each (R76). -/
def State.missingBoxes (s : State) (l : LaneNo) : State :=
  match s.visit l with
  | none => s
  | some v =>
    let m := seatMoves (s.claimedMoves l) v.front v.rear
    let given := fun x : Option (Nat × Basis) => x.any fun y => y.2 == .expected
    let s1 := if given m.1 then s.raiseUnreadable l .front 0 else s
    if given m.2 then s1.raiseUnreadable l .rear 0 else s1

/-- The seal wait expires (R94). -/
def State.sealWaitEnds (s : State) (l : LaneNo) : State :=
  let s1 := ((s.modVisit l fun v => { v with sealWait := none }).missingBoxes l).findMoves l
  (bothPos.foldl (fun t p => t.expireSeal l p) s1).settle l

/-- SEAL_WAIT_EXPIRY (R94). -/
def execSealWaitExpiry (l : LaneNo) (s : State) : Out :=
  event s fun s => if s.running l Visit.sealWait then s.sealWaitEnds l else s

/-! ### SURVEY (R100 to R102) -/

/-- The results of a survey (R101). -/
inductive SurveyResult where
  | held | graded
deriving DecidableEq, Repr

/-- The code of a grade: CLEAN 0, NOTED 1, SEVERE 2, as R106 lists them. -/
def gradeCode : DamageOutcome → Nat
  | .noted => 1
  | .severe => 2
  | .clean | .pending | .unsurveyed | .notApplicable => 0

/-- The fields a GRADED reply adds (R101): index, excess, grade, breach mark, surviving defects. -/
def gradedFields (d : DamagePart) : List Byte :=
  u16 d.index ++ u16 d.excess ++ u8 (gradeCode d.outcome) ++ flag d.breach ++ u8 d.survived

/-- A survey is placed in a position (R101). -/
def placeSurvey (s : State) (l : LaneNo) (p : Pos) (sv : Survey) : Ans :=
  let s0 := s.modVisit l fun v => { v with surveys := sv.order }
  if s.isClaimed l then
    match (s.posRec l p).sealPart.move with
    | none => refuse s .notApplied
    | some (_, .expected) => ⟨(s0.holdSurvey l p sv).settle l, .ok, u8 SurveyResult.held.ctorIdx⟩
    | some (_, .recorded) =>
      let s1 := s0.gradeSurvey l p sv
      ⟨s1.settle l, .ok, u8 SurveyResult.graded.ctorIdx ++ gradedFields (s1.posRec l p).damage⟩
  else ⟨s0.holdSurvey l p sv, .ok, u8 SurveyResult.held.ctorIdx⟩

/-- A survey naming WHOLE is not applied when the two positions hold different IDs, or when REAR has a bring-in move of its
own (R101). -/
def State.wholeRefused (s : State) (l : LaneNo) : Bool :=
  let f := s.posRec l .front
  let r := s.posRec l .rear
  (f.cid.isSome && r.cid.isSome && f.cid != r.cid) || (s.isClaimed l && r.sealPart.move.isSome)

/-- The rule of SURVEY (R100, R101). -/
def ruleSurvey (s : State) (r : SurveyReq) : Ans :=
  withLane s r.lane fun l =>
    if r.pos = .unknown then refuse s .malformed
    else if 16 < r.defects.length then refuse s .range
    else takenRead s l fun _ =>
      let ds := r.defects.map fun d => { d with area := clampArea d.area }
      let sv : Survey := ⟨ds, ((s.visit l).map Visit.surveys).getD 0 + 1⟩
      if r.pos = .whole ∧ s.wholeRefused l then refuse s .notApplied
      else placeSurvey s l (s.spanPos l (r.pos.named.getD .front)) sv

/-- SURVEY (R100). -/
def execSurvey (tag : Byte) (body : List Byte) (s : State) : Out := request s 0x14 tag body readSurvey ruleSurvey

/-! ### SURVEY_WAIT_EXPIRY (R110) -/

/-- The survey wait expires (R110). -/
def State.surveyWaitEnds (s : State) (l : LaneNo) : State :=
  (bothPos.foldl (fun t p => t.expireSurvey l p) (s.modVisit l fun v => { v with surveyWait := none })).settle l

/-- SURVEY_WAIT_EXPIRY (R110). -/
def execSurveyWaitExpiry (l : LaneNo) (s : State) : Out :=
  event s fun s => if s.running l Visit.surveyWait then s.surveyWaitEnds l else s

end Sys2Proof.Machine
end

