-- ==== Sys2Proof/Machine/HoldList.lean ====
section
/-! DEFINITION. The Hold List requests (R80 to R82) and the overrides (R121, R123): HOLD_ADD, HOLD_REMOVE, GET_HOLDS,
OVERRIDE, UNOVERRIDE. -/

namespace Sys2Proof.Machine

/-- An entry of a kind and a pattern. -/
def HoldEntry.names (e : HoldEntry) (k : HoldKind) (p : Text) : Bool := e.kind == k && e.pattern == p

/-- The rule of HOLD_ADD (R81). -/
def ruleHoldAdd (s : State) (e : HoldEntry) : Ans :=
  if patternOk e.pattern = false then refuse s .malformed
  else if 255 < e.reason then refuse s .range
  else if s.holds.any fun x => x.names e.kind e.pattern then refuse s .duplicate
  else if Config.holdMax ≤ s.holds.length then refuse s .full
  else
    let hs := s.holds ++ [e]
    ⟨{ s with holds := hs }, .ok, u8 hs.length ++ u8 hs.length⟩

/-- HOLD_ADD (R81). -/
def execHoldAdd (tag : Byte) (body : List Byte) (s : State) : Out := request s 0x15 tag body readHoldAdd ruleHoldAdd

/-- The rule of HOLD_REMOVE (R82). -/
def ruleHoldRemove (s : State) (r : HoldKind × Text) : Ans :=
  if patternOk r.2 = false then refuse s .malformed
  else if s.holds.any fun x => x.names r.1 r.2 then
    let hs := s.holds.filter fun x => !x.names r.1 r.2
    ⟨{ s with holds := hs }, .ok, u8 hs.length⟩
  else refuse s .notFound

/-- HOLD_REMOVE (R82). -/
def execHoldRemove (tag : Byte) (body : List Byte) (s : State) : Out :=
  request s 0x16 tag body readHoldRemove ruleHoldRemove

/-- A Hold List entry with its place (R82). -/
def holdField (x : Nat × HoldEntry) : List Byte :=
  u8 (x.1 + 1) ++ u8 x.2.kind.ctorIdx ++ textField x.2.pattern ++ u8 x.2.action.ctorIdx ++ u8 x.2.reason

/-- The rule of GET_HOLDS (R82). -/
def ruleGetHolds (s : State) (_ : Unit) : Ans :=
  ⟨s, .ok, listField holdField ((List.range s.holds.length).zip s.holds)⟩

/-- GET_HOLDS (R82). -/
def execGetHolds (tag : Byte) (body : List Byte) (s : State) : Out := request s 0x2C tag body readNothing ruleGetHolds

/-- The lane holds a visit without a verdict in a state that OVERRIDE allows (R121). -/
def State.takesOverride (s : State) (l : LaneNo) : Bool :=
  (s.lane l).under.gathers && (s.visit l).any fun v => v.verdict.isNone

/-- The entries of the lane's visit that belong to a check (R121). -/
def State.entriesOf (s : State) (l : LaneNo) (n : CheckName) : List Nat :=
  (s.exc.entries.filter fun e => e.ofVisit l (s.lane l).visitNumber && checkOf e.kind e.pos == some n).map (·.number)

/-- A check of the lane's visit takes an override, or loses it. -/
def State.setOverride (s : State) (l : LaneNo) (n : CheckName) (o : Option Bool) : State :=
  s.modVisit l fun v => { v with checks := v.checks.set n { v.checks.get n with override := o } }

/-- The rule of OVERRIDE (R121). -/
def ruleOverride (s : State) (r : Nat × CheckName × Bool) : Ans :=
  withLane s r.1 fun l =>
    if s.takesOverride l = false then refuse s .wrongState
    else
      let s1 := s.setOverride l r.2.1 (some r.2.2)
      let s2 := (s1.resolveAll (fun st => st == .opened || st == .logged) .overridden (s1.entriesOf l r.2.1)).1
      okay ((s2.returnLane l).settle l)

/-- OVERRIDE (R121). -/
def execOverride (tag : Byte) (body : List Byte) (s : State) : Out := request s 0x17 tag body readOverride ruleOverride

/-- A check that has lost its override is evaluated from the data held (R123); WATCH is PENDING before any attempt to form the
verdict, and RELEASE likewise (`outcomeNow`). DESIGN CHOICE, unsafe (log 47): RELEASE found NOT_RELEASED here, for the first time in the
visit too, raises nothing and leaves the release mark; the next attempt raises it (R119). -/
def State.evaluateFreed (s : State) (l : LaneNo) (n : CheckName) : State :=
  let attempted := (s.visit l).any fun v => v.attempted
  if n = .watch ∧ attempted = false then
    s.modVisit l fun v => { v with checks := v.checks.set n ((v.checks.get n).take .pending) }
  else s.evaluateAgain l n attempted

/-- The rule of UNOVERRIDE (R123). -/
def ruleUnoverride (s : State) (r : Nat × CheckName) : Ans :=
  withLane s r.1 fun l =>
    if s.takesOverride l = false then refuse s .wrongState
    else match (s.visit l).bind fun v => (v.checks.get r.2).override with
      | none => okay s
      | some _ => okay (((s.setOverride l r.2 none).evaluateFreed l r.2).settle l)

/-- UNOVERRIDE (R123). -/
def execUnoverride (tag : Byte) (body : List Byte) (s : State) : Out :=
  request s 0x18 tag body readUnoverride ruleUnoverride

end Sys2Proof.Machine
end

