-- ==== Sys2Proof/Machine/Signs.lean ====
section
/-! DEFINITION. The commands of the Direction Unit and the sign lines (spec/08, R185): SIGN_TEXT, GET_SIGN, READY,
SIGN_FRAME_RECEIVED, SIGN_FRAME_GAP_TIMEOUT, STALL_TIMER_EXPIRY. -/

namespace Sys2Proof.Machine

/-! ### SIGN_TEXT, GET_SIGN (R135, R142) -/

/-- A host text joins the queue as a group of its own (R135, R139) and the queue is served. -/
def State.joinText (s : State) (l : LaneNo) (t : Text) : State :=
  (s.modSign l fun x =>
    let y := { x with queue := x.queue ++ [⟨0, [⟨.text t, false⟩]⟩] }
    if waits x.queue then y else { y with stall := some s.store.work.signStall, reported := false }).serveSign l

/-- The rule of SIGN_TEXT (R135). -/
def ruleSignText (s : State) (r : Nat × Text) : Ans :=
  withLane s r.1 fun l =>
    if signTextOk r.2 = false then refuse s .malformed
    else if 2 < queueCount (s.lane l).sign.queue then refuse s .full
    else okay (s.joinText l r.2)

/-- SIGN_TEXT (R135). -/
def execSignText (tag : Byte) (body : List Byte) (s : State) : Out :=
  request s 0x19 tag body (readPair readU8 readText) ruleSignText

/-- The content of a record as GET_SIGN reports it: its kind, then the optional fields of section 8.1. -/
def recordFields (d : Direction) : List Byte :=
  let stop := match d with | .goToStop b r => some (textField b ++ u8 r) | _ => none
  let bay := match d with | .goToBay b => some (u8 b) | _ => none
  let reason := match d with | .turnAround c | .seeClerk c => some (u8 c) | _ => none
  let text := match d with | .text t => some (textField t) | _ => none
  u8 d.ctorIdx ++ optField id stop ++ optField id bay ++ optField id reason ++ optField id text

/-- A group as GET_SIGN reports it. -/
def groupFields (l : LaneNo) (g : Group) : List Byte :=
  u16 g.visit ++ flag g.started ++ flag g.delivered
    ++ listField (fun x : Nat × DirRec =>
        u16 g.visit ++ laneField l ++ u8 g.recs.length ++ u8 (x.1 + 1) ++ recordFields x.2.dir ++ flag x.2.sent)
      ((List.range g.recs.length).zip g.recs)

/-- The report of GET_SIGN (R142). DESIGN CHOICE, unsafe (log 48): which group is the head group is told by its place in the queue,
counted from 1, one byte behind a presence mark; no rule names a coding. -/
def signReport (s : State) (l : LaneNo) : List Byte :=
  let x := (s.lane l).sign
  u8 x.credit ++ u16 (s.store.work.signCapacity.get l) ++ u8 (queueCount x.queue) ++ listField (groupFields l) x.queue
    ++ optField (fun p : List Group × Group × List Group => u8 (p.1.length + 1)) (splitHead x.queue)
    ++ optField u16 x.stall ++ flag x.reported

/-- The rule of GET_SIGN (R142). -/
def ruleGetSign (s : State) (n : Nat) : Ans := withLane s n fun l => ⟨s, .ok, signReport s l⟩

/-- GET_SIGN (R142). -/
def execGetSign (tag : Byte) (body : List Byte) (s : State) : Out := request s 0x1A tag body readU8 ruleGetSign

/-! ### From the sign (R129, R136, R185) -/

/-- A READY with a count of 1 to 8 sets the credit and the queue is served (R136); any other count changes nothing (R129). -/
def State.signReady (s : State) (l : LaneNo) (count : Byte) : State :=
  if 1 ≤ count.toNat ∧ count.toNat ≤ 8 then (s.modSign l fun x => { x with credit := count.toNat }).serveSign l else s

/-- READY (R136). -/
def execReady (l : LaneNo) (count : Byte) (s : State) : Out := event s fun s => s.signReady l count

/-- A well-formed frame from the sign acts if it is a READY, and is discarded if not (R129, R185; log 30). -/
def State.signFrame (s : State) (l : LaneNo) (f : Frame) : State :=
  match f.body with
  | [c] => if f.tag = 0 ∧ f.kind = 1 then s.signReady l c else s
  | _ => s

/-- The sign line's receiver works on the bytes it has; bad frames are not counted (R185). -/
def State.signHear (s : State) (l : LaneNo) (bs : List Byte) : State :=
  let r := receive bs
  r.frames.foldl (fun t f => t.signFrame l f) (s.modSign l fun x => { x with rx := r.rest })

/-- SIGN_FRAME_RECEIVED: bytes arrive on a sign line (R185). -/
def execSignFrameReceived (l : LaneNo) (bytes : List Byte) (s : State) : Out :=
  event s fun s => s.signHear l ((s.lane l).sign.rx ++ bytes)

/-- SIGN_FRAME_GAP_TIMEOUT: a gap inside a frame discards it (R185, R169; log 20). -/
def execSignFrameGapTimeout (l : LaneNo) (s : State) : Out :=
  event s fun s =>
    match (s.lane l).sign.rx with
    | [] => s
    | _ :: bs => s.signHear l bs

/-! ### STALL_TIMER_EXPIRY (R140) -/

/-- The records in the queue not yet sent. -/
def unsentCount (q : List Group) : Nat := (q.map Group.unsent).sum

/-- The visit a stall names: the one the lane holds, if its group stands in the queue not delivered. DESIGN
CHOICE, unsafe (log 38): the group is told by the visit's number. -/
def State.stalledVisit (s : State) (l : LaneNo) : Option Nat :=
  ((s.visit l).map Visit.number).filter fun n => (s.lane l).sign.queue.any fun g => g.visit == n && !g.delivered

/-- The Exception Table has taken a stall with a response other than HOLD (R41; log 22). -/
def Answer.stallTaken : Answer → Bool
  | .notStored r => r != .hold
  | .openHold => false
  | .logged | .openRetry | .overridden | .silent => true

/-- The stall timer expires (R140). -/
def State.stallEnds (s : State) (l : LaneNo) : State :=
  let s1 := s.modSign l fun x => { x with stall := none, reported := true }
  if (s.lane l).state = .closed then s1
  else
    let named := s.stalledVisit l
    let r := s1.raiseExc ⟨.signStalled, some l, named, none, unsentCount (s.lane l).sign.queue, .inspect⟩
    if named.isSome ∧ r.2.stallTaken then (r.1.modVisit l fun v => { v with stallReleased := true }).testRelease l
    else r.1

/-- STALL_TIMER_EXPIRY (R140). -/
def execStallTimerExpiry (l : LaneNo) (s : State) : Out :=
  event s fun s => if (s.lane l).sign.stall.isSome then s.stallEnds l else s

end Sys2Proof.Machine
end

