-- ==== Sys2Proof/Machine/Bays.lean ====
section
/-! DEFINITION. The bay requests (spec/09): BAY_RELEASE, WAIT_REMOVE, GET_BAYS, and the change of the bay count (R151). -/

namespace Sys2Proof.Machine

/-- The lane that still holds a visit forgets its bay or its waiting mark (R148, R149). DESIGN CHOICE, unsafe (log 38): the lane is
told by the visit's number, in the words of these rules, also where the counter has come round and the hold is an earlier visit's
(R143). -/
def State.forgetBay (s : State) (h : BayHold) (f : Visit → Visit) : State :=
  if s.holdsVisit h.lane h.visit then s.modVisit h.lane f else s

/-- The rule of BAY_RELEASE (R148). -/
def ruleBayRelease (s : State) (r : Nat × Option Nat) : Ans :=
  if r.1 = 0 ∨ s.pool.bays.length < r.1 ∨ r.2 = some 0 then refuse s .range
  else match s.pool.record r.1 with
    | none => refuse s .wrongState
    | some h =>
      if r.2.any fun n => n != h.visit then refuse s .wrongState
      else
        let s1 := { s with pool := { s.pool with bays := s.pool.bays.set (r.1 - 1) none } }
        ⟨(s1.forgetBay h fun v => { v with bay := none }).serveBays, .ok, u16 h.visit ++ laneField h.lane⟩

/-- BAY_RELEASE (R148). -/
def execBayRelease (tag : Byte) (body : List Byte) (s : State) : Out :=
  request s 0x1B tag body (readPair readU8 (readOpt readU16)) ruleBayRelease

/-- The list without the entry nearest the head that carries a visit number. -/
def removeWaiting (n : Nat) : List BayHold → List BayHold
  | [] => []
  | h :: hs => if h.visit = n then hs else h :: removeWaiting n hs

/-- The rule of WAIT_REMOVE (R149). -/
def ruleWaitRemove (s : State) (n : Nat) : Ans :=
  if n = 0 then refuse s .range
  else match s.pool.waiting.find? fun h => h.visit == n with
    | none => refuse s .notFound
    | some h =>
      let s1 := { s with pool := { s.pool with waiting := removeWaiting n s.pool.waiting } }
      ⟨s1.forgetBay h fun v => { v with waiting := false }, .ok, laneField h.lane ++ u32 h.booking⟩

/-- WAIT_REMOVE (R149). -/
def execWaitRemove (tag : Byte) (body : List Byte) (s : State) : Out := request s 0x1C tag body readU16 ruleWaitRemove

/-- The record of a bay or of a waiting entry (section 9.1). -/
def bayHoldFields (h : BayHold) : List Byte :=
  u16 h.visit ++ laneField h.lane ++ u32 h.booking ++ listField textField h.cids ++ u16 h.minute

/-- The rule of GET_BAYS (R152). -/
def ruleGetBays (s : State) (_ : Unit) : Ans :=
  ⟨s, .ok,
    listField (fun b : Option BayHold => flag b.isSome ++ optField bayHoldFields b) s.pool.bays
      ++ listField (fun x : Nat × BayHold => u8 (x.1 + 1) ++ bayHoldFields x.2)
        ((List.range s.pool.waiting.length).zip s.pool.waiting)⟩

/-- GET_BAYS (R152). -/
def execGetBays (tag : Byte) (body : List Byte) (s : State) : Out := request s 0x1D tag body readNothing ruleGetBays

/-! ### The bay count (R151) -/

/-- The number of the highest-numbered ASSIGNED bay, 0 if none is. -/
def highestAssigned (bs : List (Option BayHold)) : Nat :=
  ((List.range bs.length).zip bs).foldl (fun m x => if x.2.isSome then x.1 + 1 else m) 0

/-- The bays for a count: those above it cease to exist, new ones are FREE. -/
def resizeBays (bs : List (Option BayHold)) (n : Nat) : List (Option BayHold) :=
  bs.take n ++ List.replicate (n - bs.length) none

/-- The pool takes a bay count, and a raised count serves the Waiting List. -/
def State.setBays (s : State) (n : Nat) : State :=
  let s1 := { s with pool := { s.pool with bays := resizeBays s.pool.bays n } }
  if s.pool.bays.length < n then s1.serveBays else s1

end Sys2Proof.Machine
end

