-- ==== Sys2Proof/Machine/Exceptions.lean ====
section
/-! DEFINITION. The commands of the Exception Table (spec/10): RETRY_TIMER_EXPIRY, RESOLVE, RESOLVE_LANE, RETRY_AGAIN,
CLEAR_RESOLVED, GET_EXCEPTIONS. -/

namespace Sys2Proof.Machine

/-- What follows a change of entries for the lane one of them names: the return from TROUBLE if no hold is left, and the
conditions for the verdict (R124, R158). -/
def State.follow (s : State) (l : Option LaneNo) : State :=
  match l with
  | some l => (s.returnLane l).settle l
  | none => s

/-- RETRY_TIMER_EXPIRY (R159). -/
def execRetryTimerExpiry (n : Nat) (s : State) : Out :=
  event s fun s =>
    match s.entry n with
    | some e => if e.retrying ∧ e.left.isSome then (s.retryStep e).follow e.lane else s
    | none => s

/-- The rule of RESOLVE (R162). -/
def ruleResolve (s : State) (r : Nat × Resolution) : Ans :=
  if r.2 ≠ .waive ∧ r.2 ≠ .uphold ∧ r.2 ≠ .turnAway then refuse s .malformed
  else match s.entry r.1 with
    | none => refuse s .notFound
    | some e =>
      if e.state = .resolved then refuse s .wrongState
      else okay ((s.resolveEntry e r.2).follow e.lane)

/-- RESOLVE (R162). -/
def execResolve (tag : Byte) (body : List Byte) (s : State) : Out := request s 0x1E tag body readResolve ruleResolve

/-- The numbers of the lane's OPEN entries, in table order. -/
def State.openOf (s : State) (l : LaneNo) : List Nat :=
  (s.exc.entries.filter fun e => e.state == .opened && e.lane == some l).map (·.number)

/-- The rule of RESOLVE_LANE (R163). -/
def ruleResolveLane (s : State) (n : Nat) : Ans :=
  withLane s n fun l =>
    let r := (s.clearUnrecorded l).resolveAll (fun st => st == .opened) .uphold (s.openOf l)
    ⟨r.1.follow (some l), .ok, u8 r.2⟩

/-- RESOLVE_LANE (R163). -/
def execResolveLane (tag : Byte) (body : List Byte) (s : State) : Out := request s 0x1F tag body readU8 ruleResolveLane

/-- An entry of the visit's kinds needs its lane to hold the visit without a verdict (R164 test 3). -/
def State.rearmable (s : State) (e : Entry) : Bool :=
  e.kind == .barrierFault || e.lane.any fun l => s.undecided l e.visit

/-- An entry given a fresh set of retries (R164). -/
def Entry.renewed (e : Entry) : Entry := { e with retries := 0, response := .retry, left := none }

/-- The rule of RETRY_AGAIN (R164). -/
def ruleRetryAgain (s : State) (n : Nat) : Ans :=
  match s.entry n with
  | none => refuse s .notFound
  | some e =>
    if e.kind.retrying = false ∨ e.state ≠ .opened ∨ s.rearmable e = false then refuse s .wrongState
    else
      let s1 := s.modEntry n Entry.renewed
      let s2 := match e.lane with | some l => s1.rearm l e | none => s1
      okay ((s2.rearmRetry n).follow e.lane)

/-- RETRY_AGAIN (R164). -/
def execRetryAgain (tag : Byte) (body : List Byte) (s : State) : Out := request s 0x20 tag body readU16 ruleRetryAgain

/-- RESOLVED entries leave the table (R165, R154, R157). -/
def ExcTable.cleared (t : ExcTable) : ExcTable :=
  let kept := t.entries.filter fun e => e.state != .resolved
  { t with
    entries := kept
    full := if kept.length < t.entries.length then false else t.full
    next := if kept.isEmpty then 1 else t.next }

/-- The number of entries in a state. -/
def ExcTable.count (t : ExcTable) (st : EntryState) : Nat := t.entries.countP fun e => e.state == st

/-- The rule of CLEAR_RESOLVED (R165). -/
def ruleClearResolved (s : State) (_ : Unit) : Ans :=
  ⟨{ s with exc := s.exc.cleared }, .ok, u8 (s.exc.count .resolved)⟩

/-- CLEAR_RESOLVED (R165). -/
def execClearResolved (tag : Byte) (body : List Byte) (s : State) : Out :=
  request s 0x21 tag body readNothing ruleClearResolved

/-- The next entry number as reported; open once the numbering is exhausted (log 9). -/
def ExcTable.nextField (t : ExcTable) : List Byte :=
  if 65535 < t.next then u16 Config.exhaustedNext.toNat else u16 t.next

/-- The report of GET_EXCEPTIONS (R166). -/
def excReport (t : ExcTable) (first : Nat) : List Byte :=
  let from' := t.entries.dropWhile fun e => e.number < first
  u8 (t.count .opened) ++ u8 (t.count .logged) ++ u8 (t.count .resolved) ++ u16 t.lost ++ flag t.full ++ t.nextField
    ++ flag (decide (65535 < t.next)) ++ allLanes.flatMap (fun l => flag (t.unrecorded.get l))
    ++ listField entryFields (from'.take 16) ++ flag (decide (16 < from'.length))

/-- The rule of GET_EXCEPTIONS (R166). -/
def ruleGetExceptions (s : State) (first : Nat) : Ans := ⟨s, .ok, excReport s.exc first⟩

/-- GET_EXCEPTIONS (R166). -/
def execGetExceptions (tag : Byte) (body : List Byte) (s : State) : Out :=
  request s 0x22 tag body readU16 ruleGetExceptions

end Sys2Proof.Machine
end

