-- ==== Sys2Proof/Machine/Resets.lean ====
section
/-! DEFINITION. The device resets (R19, R141, R176, R180 to R182) and the loss of power (R174): POWER_ON_RESET, POWER_LOSS,
RESTART; and REPLY_SEND (R170), behind which a RESTART may wait (R171). -/

namespace Sys2Proof.Machine

/-! ### The lanes after a reset -/

/-- The raw levels of a lane's pins. -/
def Lane.rawLevels (x : Lane) : PerInput Bool :=
  ⟨x.lines.arrival.raw, x.lines.stop.raw, x.lines.exit.raw, x.lines.upSense.raw, x.lines.downSense.raw, x.lines.call.raw⟩

/-- A lane as a device reset leaves it (R180): the pins keep their levels, and a CLEAR leaves on the sign line (R141). -/
def Lane.again (activeLow : PerInput Bool) (x : Lane) : Lane := .reset activeLow x.rawLevels (x.sign.out ++ [clearFrame])

/-- The eight lanes as a device reset leaves them, read with the polarities of the settings. -/
def lanesAgain (w : Settings) (p : PerLane Lane) : PerLane Lane :=
  ⟨p.a1.again w.activeLow.a1, p.a2.again w.activeLow.a2, p.a3.again w.activeLow.a3, p.a4.again w.activeLow.a4,
    p.a5.again w.activeLow.a5, p.a6.again w.activeLow.a6, p.a7.again w.activeLow.a7, p.a8.again w.activeLow.a8⟩

/-! ### The stored image (R174, R176) -/

/-- The image of a whole write, if its CRC is good. -/
def Image.good : Image → Option Settings
  | .whole w => some w
  | .neverWritten | .incomplete => none

/-- What a settings write cut short leaves of the image; open (log 7). -/
def Image.cutShort (old : Image) (job : SaveJob) : Config.ImageLoss → Image
  | .incomplete => .incomplete
  | .before => old
  | .after => .whole job.image

/-- A settings write under way is cut short by a loss of power or by the external reset input (R174); a RESTART that waited
for it is gone. -/
def State.endSaving (s : State) : State :=
  match s.store.saving with
  | none => s
  | some job =>
    { s with
      store := { s.store with
        image := s.store.image.cutShort job (Config.imageLoss s.freeIndex), saving := none, restartTag := none }
      freeIndex := s.freeIndex + 1 }

/-! ### POWER_LOSS (R174, R180) -/

/-- POWER_LOSS: power is lost. A settings write is cut short; nothing acts until power is applied again (log 27). -/
def execPowerLoss (s : State) : Out := event s fun s => { s.endSaving with power := false }

/-! ### POWER_ON_RESET (R180) -/

/-- The part as power-on reset puts it, but for SETTINGS_RESTORED. -/
def State.poweredOn (s : State) (w : Settings) : State where
  power := true
  gate := .shut
  clock := ⟨0, 0, 0, false⟩
  book := ⟨[], [], List.replicate Config.windowCount (.new w.defaultCapacity)⟩
  lanes := lanesAgain w s.lanes
  nextVisit := 1
  holds := []
  exc := ⟨[], 0, false, .fill false, 1⟩
  pool := ⟨List.replicate w.bayCount none, []⟩
  store := ⟨w, s.store.image, none, none⟩
  link := ⟨[], [], [], 0, 0, 0, 0, s.link.sent⟩
  phase := 0
  freeIndex := s.freeIndex
  pending := s.pending

/-- SETTINGS_RESTORED is raised with detail value 0 (R176). -/
def State.settingsRestored (s : State) : State := (s.raiseExc ⟨.settingsRestored, none, none, none, 0, .inspect⟩).1

/-- POWER_ON_RESET (R180, R176): with a good image the working settings are the image's; with a bad one they are the
defaults and SETTINGS_RESTORED is raised. -/
def execPowerOnReset (s : State) : Out :=
  .next <|
    let t := s.endSaving
    match t.store.image.good with
    | some w => t.poweredOn w
    | none => (t.poweredOn .default).settingsRestored

/-! ### RESTART (R181, R182, R19) -/

/-- What leaves the transmit side at a RESTART: the replies formed before it, no notice (R182). -/
def repliesOnly (ms : List OutMsg) : List OutMsg :=
  ms.filter fun m => match m with | .reply _ => true | .notice _ => false

/-- The part as RESTART puts it: power-on values, but for the working settings, the Gate Clock, the windows rebuilt on it
(R19), and what R182 keeps of the link. -/
def State.restarted (s : State) : State :=
  let w := s.store.work
  { s.poweredOn w with
    power := s.power
    clock := s.clock
    book := ⟨[], [], rebuiltWindows w.defaultCapacity w.lateGrace s.clock⟩
    link := ⟨s.link.rxPart, s.link.rxBuffer, repliesOnly s.link.outbox, 0, 0, 0, 0, s.link.sent⟩
    phase := s.phase }

/-- RESTART acts and its reply is formed (R181). -/
def State.doRestart (s : State) (tag : Byte) : State := s.restarted.reply tag 0x2A .ok []

/-- A RESTART that waited for a settings write acts once the reply to SAVE_SETTINGS has been formed and sent (R171). No
request is taken while it waits, so that reply is the last one formed. -/
def State.waitingRestart (s : State) : State :=
  match s.store.restartTag with
  | some tag => if s.store.saving.isSome ∨ repliesOnly s.link.outbox ≠ [] then s else s.doRestart tag
  | none => s

/-- REPLY_SEND: the reply that is first in the order of readiness leaves (R170). -/
def execReplySend (s : State) : Out :=
  event s fun s =>
    match s.link.outbox with
    | .reply r :: rest =>
      State.waitingRestart { s with link := { s.link with outbox := rest, sent := s.link.sent ++ [r.frame] } }
    | _ => s

/-- RESTART (R181); taken during a settings write it waits for it (R171). -/
def execRestart (tag : Byte) (body : List Byte) (s : State) : Out :=
  .next <| requestLate s 0x2A tag body readNothing fun t _ =>
    if t.store.saving.isSome then { t with store := { t.store with restartTag := some tag } } else t.doRestart tag

end Sys2Proof.Machine
end

