-- ==== Sys2Proof/Machine/SettingsStore.lean ====
section
/-! DEFINITION. The Settings Store (spec/11 section 11.4): SET, GET, SAVE_SETTINGS, SAVE_COMPLETE, LOAD_SETTINGS,
DEFAULT_SETTINGS (R171, R173 to R175). -/

namespace Sys2Proof.Machine

/-! ### The settings table -/

/-- The largest index of a setting of the table, 0 for a setting that takes none. -/
def indexMax (n : Nat) : Nat :=
  match n with
  | 5 | 6 => 48
  | 17 => 5
  | 21 => 8
  | 24 | 25 => 21
  | 27 => 12
  | _ => 0

/-- The number of a setting of the table. -/
def settingNumber (n : Nat) : Bool := 1 ≤ n && n ≤ 27

/-- An index fits its setting (R173 test 2). -/
def indexFits (n i : Nat) : Bool := if indexMax n = 0 then i == 0 else 1 ≤ i && i ≤ indexMax n

/-- The lane and the input of an index from 1 to 48 (R173). -/
def lineOf (i : Nat) : Option (LaneNo × Input) := do
  let l ← laneOf ((i - 1) / 6 + 1)
  let k ← allInputs[(i - 1) % 6]?
  pure (l, k)

/-- The exception kinds in the order of section 10.2. -/
def allKinds : List ExcKind :=
  [.idUnreadable, .idConflict, .containerMismatch, .plateMismatch, .noBooking, .bookingInUse, .windowEarly,
    .windowLateFull, .notReleased, .sealMissing, .sealMismatch, .sealUnexpected, .surveyMissing, .damageNoted,
    .damageSevere, .watchHit, .inspectionFull, .barrierFault, .loopFault, .signStalled, .settingsRestored]

/-- The exception kind of an index from 1 to 21. -/
def kindOf (i : Nat) : Option ExcKind := if i = 0 then none else allKinds[i - 1]?

/-- The panel of an index from 1 to 5. -/
def panelOf (i : Nat) : Option Panel := if i = 0 then none else panels[i - 1]?

/-- An enumerated setting counts its values (R173 test 3); none for a numeric one. -/
def valueCount (n : Nat) : Option Nat :=
  match n with
  | 4 | 5 | 20 | 27 => some 2
  | 24 => some 4
  | _ => none

/-- The range of a numeric setting. -/
def rangeOf (n : Nat) : Nat × Nat :=
  match n with
  | 1 | 6 | 16 => (0, 255)
  | 2 | 3 => (0, 120)
  | 7 => (100, 36000)
  | 8 | 9 => (20, 300)
  | 10 => (0, 300)
  | 11 | 13 | 14 => (50, 1200)
  | 12 => (50, 3000)
  | 15 => (1, 9)
  | 17 => (0, 15)
  | 18 | 19 => (0, 1000)
  | 21 | 23 => (if n = 21 then 1 else 0, 8)
  | 22 => (20, 600)
  | 25 => (0, 7)
  | 26 => (10, 600)
  | _ => (0, 65535)

/-- A value taken to the nearer end of a range. -/
def clampTo (r : Nat × Nat) (v : Nat) : Nat := max r.1 (min r.2 v)

/-- A value of the response or retry limit that R155 refuses. -/
def refusedBy155 (n : Nat) (k : Option ExcKind) (v : Nat) : Bool :=
  match n, k with
  | 24, some k => k.fixed || !((responsesList[v]?).any fun r => k.allows r)
  | 25, some k => !k.retrying
  | _, _ => false

/-- A note threshold above the severe threshold (R107). -/
def thresholdsCross (w : Settings) : Bool := decide (w.severeThreshold < w.noteThreshold)

/-- A family with one thing replaced by a place found, if any. -/
def PerLane.mod {α : Type} (p : PerLane α) (l : LaneNo) (f : α → α) : PerLane α := p.set l (f (p.get l))

/-- The settings with one setting given a value that the tests have passed. -/
def Settings.put (w : Settings) (n i v : Nat) : Settings :=
  match n with
  | 1 => { w with defaultCapacity := v }
  | 2 => { w with lateGrace := v }
  | 3 => { w with earlyTolerance := v }
  | 4 => { w with pullForward := v == 1 }
  | 5 => match lineOf i with
    | some (l, k) => { w with activeLow := w.activeLow.mod l fun p => p.set k (v == 1) }
    | none => w
  | 6 => match lineOf i with
    | some (l, k) => { w with settleSteps := w.settleSteps.mod l fun p => p.set k v }
    | none => w
  | 7 => { w with loopStuck := v }
  | 8 => { w with raiseTime := v }
  | 9 => { w with lowerTime := v }
  | 10 => { w with idSettle := v }
  | 11 => { w with lookup := v }
  | 12 => { w with abandon := v }
  | 13 => { w with sealWait := v }
  | 14 => { w with surveyWait := v }
  | 15 => { w with misreadLimit := v }
  | 16 => { w with minDepth := v }
  | 17 => match panelOf i with
    | some p => { w with weights := w.weights.set p v }
    | none => w
  | 18 => { w with noteThreshold := v }
  | 19 => { w with severeThreshold := v }
  | 20 => { w with surveyMissingInspect := v == 1 }
  | 21 => match laneOf i with
    | some l => { w with signCapacity := w.signCapacity.set l v }
    | none => w
  | 22 => { w with signStall := v }
  | 23 => { w with bayCount := v }
  | 24 => match responsesList[v]? with
    | some r => { w with responses := w.responses.setIfInBounds (i - 1) r }
    | none => w
  | 25 => { w with limits := w.limits.setIfInBounds (i - 1) v }
  | 26 => { w with retryInterval := v }
  | 27 => { w with masks := w.masks.setIfInBounds (i - 1) (v == 1) }
  | _ => w

/-- The value of one setting as GET reports it: a fixed response is the one of section 10.2; that of WATCH_HIT, which follows
the entry's action, and a retry limit that the kind does not have are open (log 8). -/
def Settings.value (w : Settings) (n i : Nat) : Nat :=
  match n with
  | 1 => w.defaultCapacity
  | 2 => w.lateGrace
  | 3 => w.earlyTolerance
  | 4 => w.pullForward.toNat
  | 5 => match lineOf i with
    | some (l, k) => ((w.activeLow.get l).get k).toNat
    | none => 0
  | 6 => match lineOf i with
    | some (l, k) => (w.settleSteps.get l).get k
    | none => 0
  | 7 => w.loopStuck
  | 8 => w.raiseTime
  | 9 => w.lowerTime
  | 10 => w.idSettle
  | 11 => w.lookup
  | 12 => w.abandon
  | 13 => w.sealWait
  | 14 => w.surveyWait
  | 15 => w.misreadLimit
  | 16 => w.minDepth
  | 17 => match panelOf i with
    | some p => w.weights.get p
    | none => 0
  | 18 => w.noteThreshold
  | 19 => w.severeThreshold
  | 20 => w.surveyMissingInspect.toNat
  | 21 => match laneOf i with
    | some l => w.signCapacity.get l
    | none => 0
  | 22 => w.signStall
  | 23 => w.bayCount
  | 24 => match kindOf i with
    | some .watchHit => Config.watchHitResponse.toNat
    | some .inspectionFull => Response.hold.ctorIdx
    | some .settingsRestored => Response.note.ctorIdx
    | some k => (w.response k).ctorIdx
    | none => 0
  | 25 => match kindOf i with
    | some k => if k.retrying then w.limit k else (Config.noRetryLimit i).toNat
    | none => 0
  | 26 => w.retryInterval
  | 27 => (w.masks.getD (i - 1) false).toNat
  | _ => 0

/-! ### SET, GET (R173) -/

/-- The settings in use are changed. -/
def State.setWork (s : State) (w : Settings) : State := { s with store := { s.store with work := w } }

/-- A SET of the bay count at the Bay Pool (R151). -/
def State.setBayCount (s : State) (v : Nat) (st : Status) : Ans :=
  if v < highestAssigned s.pool.bays then refuse s .wrongState
  else ⟨(s.setWork (s.store.work.put 23 0 v)).setBays v, st, []⟩

/-- A value becomes the working value, and acts where its chapter says that it acts at once: a polarity re-reads its raw
level (R52), the bay count goes to the Bay Pool (R151). DESIGN CHOICE, unsafe (log 37): a new sign capacity is read at the next start
test (R137) and is itself none, so a head group that it lets start waits for the next READY, join or delivery. -/
def State.takeSetting (s : State) (r : SetReq) (v : Nat) (st : Status) : Ans :=
  let w := s.store.work.put r.number r.index v
  if r.number = 23 then s.setBayCount v st
  else if (r.number = 18 ∨ r.number = 19) ∧ thresholdsCross w then refuse s .range
  else if r.number = 5 then
    match lineOf r.index with
    | some (l, k) => ⟨(s.setWork w).readRaw l k, st, []⟩
    | none => refuse s .range
  else ⟨s.setWork w, st, []⟩

/-- The rule of SET (R173, R171). -/
def ruleSet (s : State) (r : SetReq) : Ans :=
  busyOr s <|
    if settingNumber r.number = false then refuse s .notFound
    else if indexFits r.number r.index = false then refuse s .range
    else match valueCount r.number with
      | some c =>
        if c ≤ r.value ∨ refusedBy155 r.number (kindOf r.index) r.value then refuse s .range
        else s.takeSetting r r.value .ok
      | none =>
        if refusedBy155 r.number (kindOf r.index) r.value then refuse s .range
        else
          let v := clampTo (rangeOf r.number) r.value
          s.takeSetting r v (if v = r.value then .ok else .clamped)

/-- SET (R173). -/
def execSet (tag : Byte) (body : List Byte) (s : State) : Out := request s 0x23 tag body readSet ruleSet

/-- The rule of GET (R173). -/
def ruleGet (s : State) (r : Nat × Nat) : Ans :=
  if settingNumber r.1 = false then refuse s .notFound
  else if indexFits r.1 r.2 = false then refuse s .range
  else ⟨s, .ok, u16 (s.store.work.value r.1 r.2)⟩

/-- GET (R173). -/
def execGet (tag : Byte) (body : List Byte) (s : State) : Out := request s 0x24 tag body (readPair readU8 readU8) ruleGet

/-! ### The image and its CRC (R174, R175) -/

/-- The response of a kind as a number, 0 where the kind has no response setting. -/
def Settings.responseNumber (w : Settings) (k : ExcKind) : Nat := if k.fixed then 0 else (w.response k).ctorIdx

/-- The retry limit of a kind, 0 where the kind has no retry step. -/
def Settings.limitNumber (w : Settings) (k : ExcKind) : Nat := if k.retrying then w.limit k else 0

/-- The values of every setting, in the order of the settings table. -/
def Settings.values (w : Settings) : List Nat :=
  [w.defaultCapacity, w.lateGrace, w.earlyTolerance, w.pullForward.toNat]
    ++ allLanes.flatMap (fun l => allInputs.map fun i => ((w.activeLow.get l).get i).toNat)
    ++ allLanes.flatMap (fun l => allInputs.map fun i => (w.settleSteps.get l).get i)
    ++ [w.loopStuck, w.raiseTime, w.lowerTime, w.idSettle, w.lookup, w.abandon, w.sealWait, w.surveyWait, w.misreadLimit,
      w.minDepth]
    ++ panels.map w.weights.get
    ++ [w.noteThreshold, w.severeThreshold, w.surveyMissingInspect.toNat]
    ++ allLanes.map w.signCapacity.get
    ++ [w.signStall, w.bayCount]
    ++ allKinds.map w.responseNumber
    ++ allKinds.map w.limitNumber
    ++ [w.retryInterval]
    ++ w.masks.toList.map Bool.toNat

/-- The CRC over an image of the settings; open (log 6). -/
def Settings.crc (w : Settings) : Nat := (Config.imageCrc w.values).toNat

/-- The operations of a SETTINGS_DONE notice. -/
inductive SettingsOp where
  | save | load | default
deriving DecidableEq, Repr

/-- The SETTINGS_DONE notice: the operation and the CRC. -/
def State.settingsDone (s : State) (op : SettingsOp) (crc : Nat) : State :=
  s.queueNotice ⟨.settingsDone, u8 op.ctorIdx ++ u16 crc⟩

/-! ### SAVE_SETTINGS, SAVE_COMPLETE (R174, R171) -/

/-- The time that a settings write is given, in tenths of a second (R174: at most 400 ms). -/
def saveTime : Nat := 4

/-- The rule of SAVE_SETTINGS (R174): the write begins; its reply is formed when the write is complete. -/
def ruleSave (s : State) (tag : Byte) : State :=
  if s.store.saving.isSome then s.reply tag 0x25 .busy []
  else { s with store := { s.store with saving := some ⟨s.store.work, tag, saveTime⟩ } }

/-- SAVE_SETTINGS (R174). -/
def execSaveSettings (tag : Byte) (body : List Byte) (s : State) : Out :=
  .next <| requestLate s 0x25 tag body readNothing fun t _ => ruleSave t tag

/-- The write is complete: the image, SETTINGS_DONE, the reply. -/
def State.saveDone (s : State) (job : SaveJob) : State :=
  (({ s with store := { s.store with image := .whole job.image, saving := none } }).settingsDone .save job.image.crc).reply
    job.tag 0x25 .ok (u16 job.image.crc)

/-- SAVE_COMPLETE (R174). A RESTART that waits acts once the reply has been sent (R171). -/
def execSaveComplete (s : State) : Out :=
  event s fun s =>
    match s.store.saving with
    | some job => s.saveDone job
    | none => s

/-! ### LOAD_SETTINGS, DEFAULT_SETTINGS (R175) -/

/-- Every input whose polarity has changed re-reads its raw level (R175, R52). DESIGN CHOICE, unsafe (log 46): lane 1 to 8, and in each
lane the inputs in the order of the table of section 3.1; no rule orders the lines that one request re-reads. -/
def State.rereadPolarities (s : State) (old : PerLane (PerInput Bool)) : State :=
  allLanes.foldl (fun t l => allInputs.foldl (fun t i =>
    if t.activeLow l i = (old.get l).get i then t else t.readRaw l i) t) s

/-- Every working setting takes a value, the bay count not below the highest-numbered ASSIGNED bay (R151); SETTINGS_DONE is
queued; then the settings act: a raised bay count serves the Waiting List, and the changed polarities re-read their raw
levels (R175). The order of these is log 23's, that among the lines log 46's. DESIGN CHOICE, unsafe (log 37): a new sign capacity is no start test. -/
def State.takeSettings (s : State) (w : Settings) (op : SettingsOp) : State :=
  let n := max w.bayCount (highestAssigned s.pool.bays)
  let w1 := { w with bayCount := n }
  (((s.setWork w1).settingsDone op w1.crc).setBays n).rereadPolarities s.store.work.activeLow

/-- The rule of LOAD_SETTINGS (R175, R171). -/
def ruleLoad (s : State) (_ : Unit) : Ans :=
  busyOr s <|
    match s.store.image.good with
    | none => refuse s .wrongState
    | some w => okay (s.takeSettings w .load)

/-- LOAD_SETTINGS (R175). -/
def execLoadSettings (tag : Byte) (body : List Byte) (s : State) : Out := request s 0x26 tag body readNothing ruleLoad

/-- The rule of DEFAULT_SETTINGS (R175, R171). -/
def ruleDefault (s : State) (_ : Unit) : Ans := busyOr s (okay (s.takeSettings .default .default))

/-- DEFAULT_SETTINGS (R175). -/
def execDefaultSettings (tag : Byte) (body : List Byte) (s : State) : Out :=
  request s 0x27 tag body readNothing ruleDefault

end Sys2Proof.Machine
end

