-- ==== Sys2Proof/Machine/Device.lean ====
section
/-! DEFINITION. The gate modes, the counters and the identification (spec/11 sections 11.5, 11.7): GATE_OPEN, GATE_SHUT,
GET_COUNTERS, IDENTIFY. -/

namespace Sys2Proof.Machine

/-! ### GATE_OPEN, GATE_SHUT (R178, R179) -/

/-- A change to every lane. -/
def State.eachLane (s : State) (f : Lane → Lane) : State := { s with lanes := s.lanes.map f }

/-- The rule of GATE_OPEN (R178). -/
def ruleGateOpen (s : State) (_ : Unit) : Ans :=
  match s.gate with
  | .shut =>
    if s.clock.valid then okay ((s.eachLane fun x => { x with sign := x.sign.clear }).changeGate .opened .gateOpen)
    else refuse s .wrongState
  | .opened => okay s
  | .draining =>
    okay ((s.eachLane fun x => if x.state = .closed then x else { x with closePending := false }).changeGate .opened
      .gateOpen)

/-- GATE_OPEN (R178). -/
def execGateOpen (tag : Byte) (body : List Byte) (s : State) : Out := request s 0x28 tag body readNothing ruleGateOpen

/-- The gate begins to drain: every lane is closed as by CLOSE_LANE, and the lanes are checked (R179). -/
def State.drain (s : State) : State :=
  (allLanes.foldl (fun t l => t.closeLane l) (s.changeGate .draining .gateShut)).lanesClosed

/-- The rule of GATE_SHUT (R179). -/
def ruleGateShut (s : State) (_ : Unit) : Ans :=
  match s.gate with
  | .opened => okay s.drain
  | .shut | .draining => okay s

/-- GATE_SHUT (R179). -/
def execGateShut (tag : Byte) (body : List Byte) (s : State) : Out := request s 0x29 tag body readNothing ruleGateShut

/-! ### GET_COUNTERS (R183) -/

/-- The counters kept per lane, in the order of section 11.7. -/
def laneCounters : List (LaneCounters → Nat) :=
  [LaneCounters.visits, LaneCounters.admitted, LaneCounters.inspect, LaneCounters.turnedAway, LaneCounters.abandoned,
    LaneCounters.misreads, LaneCounters.duplicates, LaneCounters.forcedRaw, LaneCounters.discarded,
    LaneCounters.reversals]

/-- The report of GET_COUNTERS: counter by counter, the lanes in order, then the counters of the device. -/
def counterReport (s : State) : List Byte :=
  laneCounters.flatMap (fun f => allLanes.flatMap fun l => u16 (f (s.lane l).counters))
    ++ u16 s.link.badFrames ++ u16 s.link.overflows ++ u16 s.link.noticesLost ++ u16 s.exc.lost

/-- Every counter is set to 0. -/
def State.clearCounters (s : State) : State :=
  { s.eachLane fun x => { x with counters := .zero } with
    link := { s.link with badFrames := 0, overflows := 0, noticesLost := 0 }
    exc := { s.exc with lost := 0 } }

/-- The rule of GET_COUNTERS (R183). -/
def ruleGetCounters (s : State) (clear : Bool) : Ans := ⟨if clear then s.clearCounters else s, .ok, counterReport s⟩

/-- GET_COUNTERS (R183). DESIGN CHOICE, unsafe (log 40): a clear mark other than 0 and 1 is MALFORMED, as a presence mark is by
R170. -/
def execGetCounters (tag : Byte) (body : List Byte) (s : State) : Out :=
  request s 0x2B tag body (readEnum [false, true]) ruleGetCounters

/-! ### IDENTIFY (R184) -/

/-- The identification of the part (R184), the widths of its fields by log 21. -/
def identification : List Byte :=
  u16 0x6A31 ++ u16 0x0858 ++ u8 2 ++ u8 8 ++ u16 Config.bookingMax ++ u8 Config.windowCount ++ u8 Config.holdMax
    ++ u8 Config.entryMax ++ u8 Config.queueMax ++ u8 Config.waitingMax ++ u8 Config.bayMax ++ u8 Config.noticeMax
    ++ u16 Config.rxBytes ++ u16 Config.bodyMax

/-- The rule of IDENTIFY (R184). -/
def ruleIdentify (s : State) (_ : Unit) : Ans := ⟨s, .ok, identification⟩

/-- IDENTIFY (R184). -/
def execIdentify (tag : Byte) (body : List Byte) (s : State) : Out := request s 0x2D tag body readNothing ruleIdentify

end Sys2Proof.Machine
end

