-- ==== Sys2Proof/Machine/Dispatch.lean ====
section
/-! DEFINITION. What each command does: one arm for each row of the opcode table. -/

namespace Sys2Proof.Machine

def exec (i : Instr) (s : State) : Host.Outcome State Fault Refusal :=
  match i with
  | .powerOnReset => Sys2Proof.Machine.execPowerOnReset s
  | .frameReceived bytes => Sys2Proof.Machine.execFrameReceived bytes s
  | .frameGapTimeout => Sys2Proof.Machine.execFrameGapTimeout s
  | .unknownKind tag kind body => Sys2Proof.Machine.execUnknownKind tag kind body s
  | .replySend => Sys2Proof.Machine.execReplySend s
  | .noticeSend => Sys2Proof.Machine.execNoticeSend s
  | .book tag body => Sys2Proof.Machine.execBook tag body s
  | .amend tag body => Sys2Proof.Machine.execAmend tag body s
  | .cancel tag body => Sys2Proof.Machine.execCancel tag body s
  | .getBooking tag body => Sys2Proof.Machine.execGetBooking tag body s
  | .getWindows tag body => Sys2Proof.Machine.execGetWindows tag body s
  | .setCapacity tag body => Sys2Proof.Machine.execSetCapacity tag body s
  | .setClock tag body => Sys2Proof.Machine.execSetClock tag body s
  | .getClock tag body => Sys2Proof.Machine.execGetClock tag body s
  | .gateClockSecond => Sys2Proof.Machine.execGateClockSecond s
  | .openLane tag body => Sys2Proof.Machine.execOpenLane tag body s
  | .closeLane tag body => Sys2Proof.Machine.execCloseLane tag body s
  | .resetLane tag body => Sys2Proof.Machine.execResetLane tag body s
  | .getLane tag body => Sys2Proof.Machine.execGetLane tag body s
  | .keyedBooking tag body => Sys2Proof.Machine.execKeyedBooking tag body s
  | .lookupAnswer tag body => Sys2Proof.Machine.execLookupAnswer tag body s
  | .forceLine tag body => Sys2Proof.Machine.execForceLine tag body s
  | .unforceLine tag body => Sys2Proof.Machine.execUnforceLine tag body s
  | .rawLevelChange lane input level => Sys2Proof.Machine.execRawLevelChange lane input level s
  | .settleExpiry lane input => Sys2Proof.Machine.execSettleExpiry lane input s
  | .loopStuckExpiry lane loop => Sys2Proof.Machine.execLoopStuckExpiry lane loop s
  | .idSettleExpiry lane => Sys2Proof.Machine.execIdSettleExpiry lane s
  | .lookupTimeout lane => Sys2Proof.Machine.execLookupTimeout lane s
  | .abandonExpiry lane => Sys2Proof.Machine.execAbandonExpiry lane s
  | .plateRead tag body => Sys2Proof.Machine.execPlateRead tag body s
  | .idRead tag body => Sys2Proof.Machine.execIdRead tag body s
  | .sealRead tag body => Sys2Proof.Machine.execSealRead tag body s
  | .sealWaitExpiry lane => Sys2Proof.Machine.execSealWaitExpiry lane s
  | .survey tag body => Sys2Proof.Machine.execSurvey tag body s
  | .surveyWaitExpiry lane => Sys2Proof.Machine.execSurveyWaitExpiry lane s
  | .holdAdd tag body => Sys2Proof.Machine.execHoldAdd tag body s
  | .holdRemove tag body => Sys2Proof.Machine.execHoldRemove tag body s
  | .getHolds tag body => Sys2Proof.Machine.execGetHolds tag body s
  | .override tag body => Sys2Proof.Machine.execOverride tag body s
  | .unoverride tag body => Sys2Proof.Machine.execUnoverride tag body s
  | .ready lane count => Sys2Proof.Machine.execReady lane count s
  | .signFrameGapTimeout lane => Sys2Proof.Machine.execSignFrameGapTimeout lane s
  | .signText tag body => Sys2Proof.Machine.execSignText tag body s
  | .getSign tag body => Sys2Proof.Machine.execGetSign tag body s
  | .stallTimerExpiry lane => Sys2Proof.Machine.execStallTimerExpiry lane s
  | .raiseTimerExpiry lane => Sys2Proof.Machine.execRaiseTimerExpiry lane s
  | .lowerTimerExpiry lane => Sys2Proof.Machine.execLowerTimerExpiry lane s
  | .retryTimerExpiry entry => Sys2Proof.Machine.execRetryTimerExpiry entry s
  | .resolve tag body => Sys2Proof.Machine.execResolve tag body s
  | .resolveLane tag body => Sys2Proof.Machine.execResolveLane tag body s
  | .retryAgain tag body => Sys2Proof.Machine.execRetryAgain tag body s
  | .clearResolved tag body => Sys2Proof.Machine.execClearResolved tag body s
  | .getExceptions tag body => Sys2Proof.Machine.execGetExceptions tag body s
  | .bayRelease tag body => Sys2Proof.Machine.execBayRelease tag body s
  | .waitRemove tag body => Sys2Proof.Machine.execWaitRemove tag body s
  | .getBays tag body => Sys2Proof.Machine.execGetBays tag body s
  | .set tag body => Sys2Proof.Machine.execSet tag body s
  | .get tag body => Sys2Proof.Machine.execGet tag body s
  | .saveSettings tag body => Sys2Proof.Machine.execSaveSettings tag body s
  | .saveComplete => Sys2Proof.Machine.execSaveComplete s
  | .loadSettings tag body => Sys2Proof.Machine.execLoadSettings tag body s
  | .defaultSettings tag body => Sys2Proof.Machine.execDefaultSettings tag body s
  | .gateOpen tag body => Sys2Proof.Machine.execGateOpen tag body s
  | .gateShut tag body => Sys2Proof.Machine.execGateShut tag body s
  | .restart tag body => Sys2Proof.Machine.execRestart tag body s
  | .getCounters tag body => Sys2Proof.Machine.execGetCounters tag body s
  | .identify tag body => Sys2Proof.Machine.execIdentify tag body s
  | .signFrameReceived lane bytes => Sys2Proof.Machine.execSignFrameReceived lane bytes s
  | .powerLoss => Sys2Proof.Machine.execPowerLoss s

end Sys2Proof.Machine
end

