-- ==== Sys2Proof/Machine/Clocked.lean ====
section
/-! DEFINITION. What the part does by itself when no command is waiting (log 1): a timer that has come to its end, a
ready message, a waiting request, else 10 ms pass. -/

namespace Sys2Proof.Machine

/-! ### Timers that have come to their end -/

/-- A timer that has no time left. -/
def due (t : Option Nat) : Bool := t == some 0

/-- The expiry of a timer, if it is due. -/
def expiry (t : Option Nat) (i : Instr) : List Instr := if due t then [i] else []

/-- The due timers of a lane's visit, in the order of section 2.3. -/
def Visit.dueTimers (v : Visit) (l : LaneNo) : List Instr :=
  expiry v.idSettle (.idSettleExpiry l) ++ expiry v.lookup (.lookupTimeout l) ++ expiry v.abandon (.abandonExpiry l)
    ++ expiry v.sealWait (.sealWaitExpiry l) ++ expiry v.surveyWait (.surveyWaitExpiry l)

/-- The due timer of a barrier (R58). -/
def Barrier.dueTimers (b : Barrier) (l : LaneNo) : List Instr :=
  match b.state with
  | .raising => expiry b.left (.raiseTimerExpiry l)
  | .lowering => expiry b.left (.lowerTimerExpiry l)
  | .down | .up | .fault => []

/-- The due timers of a lane. -/
def Lane.dueTimers (x : Lane) (l : LaneNo) : List Instr :=
  allInputs.flatMap (fun i => expiry (x.lines.get i).pending (.settleExpiry l i))
    ++ allLoops.flatMap (fun i => expiry (x.stuck.get i).left (.loopStuckExpiry l i))
    ++ ((x.visit.map fun v => v.dueTimers l).getD [])
    ++ x.barrier.dueTimers l ++ expiry x.sign.stall (.stallTimerExpiry l)

/-- The expiries of the timers that are due, in the order of log 1. -/
def State.dueTimers (s : State) : List Instr :=
  expiry (s.store.saving.map (·.left)) .saveComplete ++ allLanes.flatMap (fun l => (s.lane l).dueTimers l)
    ++ s.exc.entries.flatMap fun e => expiry e.left (.retryTimerExpiry e.number)

/-! ### The passing of time -/

/-- A running timer has one unit less left. -/
def tick (t : Option Nat) : Option Nat := t.map (· - 1)

/-- The pending settles of a lane run by 10 ms (R52). -/
def Lane.tickSettles (x : Lane) : Lane :=
  let f := fun r : LineRec => { r with pending := tick r.pending }
  { x with lines := ⟨f x.lines.arrival, f x.lines.stop, f x.lines.exit, f x.lines.upSense, f x.lines.downSense,
    f x.lines.call⟩ }

/-- The timers of a visit run by 100 ms (R28). -/
def Visit.tick (v : Visit) : Visit :=
  { v with
    idSettle := Machine.tick v.idSettle, lookup := Machine.tick v.lookup, abandon := Machine.tick v.abandon
    sealWait := Machine.tick v.sealWait, surveyWait := Machine.tick v.surveyWait }

/-- The timers of a lane run by 100 ms. -/
def Lane.tickTimers (x : Lane) : Lane :=
  let f := fun w : StuckWatch => { w with left := tick w.left }
  { x with
    visit := x.visit.map Visit.tick
    stuck := ⟨f x.stuck.arrival, f x.stuck.stop, f x.stuck.exit⟩
    barrier := { x.barrier with left := tick x.barrier.left }
    sign := { x.sign with stall := tick x.sign.stall } }

/-- Every timer of 100 ms resolution runs. -/
def State.tickTimers (s : State) : State :=
  { s with
    lanes := s.lanes.map Lane.tickTimers
    exc := { s.exc with entries := s.exc.entries.map fun e => { e with left := tick e.left } }
    store := { s.store with saving := s.store.saving.map fun j => { j with left := j.left - 1 } } }

/-- 10 ms pass: the settles run, every tenth time the timers of 100 ms, and with the second the Gate Clock (R14). -/
def State.pass (s : State) : Out :=
  let s1 := { s with lanes := s.lanes.map Lane.tickSettles, phase := (s.phase + 1) % 100 }
  let s2 := if s1.phase % 10 = 0 then s1.tickTimers else s1
  if s2.phase = 0 then exec .gateClockSecond s2 else .next s2

/-! ### The part's own next activity -/

/-- The expiry that is due first, or the message that is ready first, or the request that waits first and is not kept back
by a RESTART (R171). -/
def State.nextAct (s : State) : Option Instr :=
  match s.dueTimers, s.link.outbox with
  | i :: _, _ => some i
  | [], .reply _ :: _ => some .replySend
  | [], .notice _ :: _ => some .noticeSend
  | [], [] =>
    if s.store.restartTag.isSome then none
    else s.link.rxBuffer.head?.map fun f => commandOfFrame f.tag f.kind f.body

/-- What an empty queue comes to (log 1). Without power nothing happens. -/
def idle (s : State) : Out :=
  if s.power = false then .next s
  else match s.nextAct with
    | some i => exec i s
    | none => s.pass

end Sys2Proof.Machine
end

