-- ==== Sys2Proof/Machine/Step.lean ====
section
/-! DEFINITION. One step of the part: the command at the front of the queue, or on an empty queue the part's own next
activity. -/

namespace Sys2Proof.Machine

/-- The state without the front of its queue. -/
def State.withQueue (s : State) (q : List Instr) : State := { s with pending := q }

/-- One step. A command at the front of the queue is taken and acts on the part with the rest of the queue; on an empty
queue the part goes on by itself (log 1). -/
def step (s : State) : Host.Outcome State Fault Refusal :=
  match s.pending with
  | c :: rest => exec c (s.withQueue rest)
  | [] => idle s

/-- The state with the command that a word spells in front of its queue; unchanged where the word spells none. -/
def State.withFetchWord (s : State) (nbits w : Nat) : State :=
  match decodeTableWord nbits w with
  | some c => s.withQueue (c :: s.pending)
  | none => s

end Sys2Proof.Machine
end

