-- ==== Sys2Proof/Safety.lean ====
section
/-! DEFINITION. What a sound state of the part is (the bounds the manual gives its tables, queues and settings, the over
flags, and books that agree with the lanes), what work on the part and on one lane leaves alone, what the tables of
R46, R60 and R65 come to, and the forms in which statements are made. -/

namespace Sys2Proof.Machine

/-! ### Bounds -/

/-- Every over flag is as R6 evaluates it: set if booked plus admitted units are above the capacity. -/
def BookUnit.overFlagsRight (b : BookUnit) : Prop :=
  ∀ w ∈ b.windows, w.overFlag = decide (w.capacity < w.booked + w.admitted)

/-- The tables and queues that the part fills by itself keep to their sizes: 96 windows (section 1.3) with their over
flags right (R6), at most 32 entries in ascending number below the next one (R153, R154), 16 visits waiting for a bay
(R143), 32 notices queued and a notices-lost count of one byte (R172). -/
structure Bounds (s : State) : Prop where
  windows : s.book.windows.length = Config.windowCount
  flags : s.book.overFlagsRight
  entries : s.exc.entries.length ≤ Config.entryMax
  ascending : s.exc.entries.Pairwise fun d e => d.number < e.number
  below : ∀ e ∈ s.exc.entries, e.number < s.exc.next
  waiting : s.pool.waiting.length ≤ Config.waitingMax
  notices : s.link.noticeCount ≤ Config.noticeMax
  lost : s.link.lostByte ≤ 255

/-- Every setting lies in its range (spec/11 section 11.4), the response of every kind is one its line allows (R155), and the
note threshold is not above the severe threshold (R107). -/
structure Settings.InRange (w : Settings) : Prop where
  defaultCapacity : w.defaultCapacity ≤ 255
  lateGrace : w.lateGrace ≤ 120
  earlyTolerance : w.earlyTolerance ≤ 120
  settleSteps : ∀ l i, (w.settleSteps.get l).get i ≤ 255
  loopStuck : 100 ≤ w.loopStuck ∧ w.loopStuck ≤ 36000
  raiseTime : 20 ≤ w.raiseTime ∧ w.raiseTime ≤ 300
  lowerTime : 20 ≤ w.lowerTime ∧ w.lowerTime ≤ 300
  idSettle : w.idSettle ≤ 300
  lookup : 50 ≤ w.lookup ∧ w.lookup ≤ 1200
  abandon : 50 ≤ w.abandon ∧ w.abandon ≤ 3000
  sealWait : 50 ≤ w.sealWait ∧ w.sealWait ≤ 1200
  surveyWait : 50 ≤ w.surveyWait ∧ w.surveyWait ≤ 1200
  misreadLimit : 1 ≤ w.misreadLimit ∧ w.misreadLimit ≤ 9
  minDepth : w.minDepth ≤ 255
  weights : ∀ p, w.weights.get p ≤ 15
  severeThreshold : w.severeThreshold ≤ 1000
  thresholds : w.noteThreshold ≤ w.severeThreshold
  signCapacity : ∀ l, 1 ≤ w.signCapacity.get l ∧ w.signCapacity.get l ≤ 8
  signStall : 20 ≤ w.signStall ∧ w.signStall ≤ 600
  bayCount : w.bayCount ≤ 8
  responses : ∀ k : ExcKind, k.fixed = false → k.allows (w.response k) = true
  limits : ∀ k : ExcKind, k.retrying = true → w.limit k ≤ 7
  retryInterval : 10 ≤ w.retryInterval ∧ w.retryInterval ≤ 600

/-- The Settings Store holds only settings in range: the working ones, a whole image, and a write under way. -/
structure Store.InRange (k : Store) : Prop where
  work : k.work.InRange
  image : ∀ w, k.image = .whole w → w.InRange
  saving : ∀ j, k.saving = some j → j.image.InRange

/-- A sound state: the bounds, at most 64 Hold List entries (R80), as many bays as the bay count (R151), settings in
range, at most two moves in a booking (R3), at most 6 records in a direction queue (R133), a sign credit of at most 8 (R136), and
at most 2048 bytes in the receive buffer (R169). -/
structure Sound (s : State) : Prop where
  bounds : Bounds s
  holds : s.holds.length ≤ Config.holdMax
  bays : s.pool.bays.length = s.store.work.bayCount
  store : s.store.InRange
  moves : ∀ k ∈ s.book.table, k.moves.length ≤ 2
  queues : ∀ l, queueCount (s.lane l).sign.queue ≤ Config.queueMax
  credits : ∀ l, (s.lane l).sign.credit ≤ 8
  buffer : (s.link.rxBuffer.map Frame.size).sum ≤ Config.rxBytes

/-! ### What work leaves alone -/

/-- What the work of the part on its tables and lanes leaves alone: power, the queue of commands, the Hold List, the
settings, the receiver and what has left; the transmit side only gains notices. -/
structure Steady (s t : State) : Prop where
  power : t.power = s.power
  pending : t.pending = s.pending
  freeIndex : t.freeIndex = s.freeIndex
  holds : t.holds = s.holds
  store : t.store = s.store
  rxPart : t.link.rxPart = s.link.rxPart
  rxBuffer : t.link.rxBuffer = s.link.rxBuffer
  badFrames : t.link.badFrames = s.link.badFrames
  overflows : t.link.overflows = s.link.overflows
  sent : t.link.sent = s.link.sent
  bays : t.pool.bays.length = s.pool.bays.length
  outbox : ∃ ns : List Notice, t.link.outbox = s.link.outbox ++ ns.map .notice

/-- What work on one lane leaves alone besides: the Gate Clock, every other lane and its unrecorded-hold flag, and the gate
but for its leaving DRAINING (R179). -/
structure OneLane (l : LaneNo) (s t : State) : Prop where
  clock : t.clock = s.clock
  phase : t.phase = s.phase
  others : ∀ m, m ≠ l → t.lane m = s.lane m
  flags : ∀ m, m ≠ l → t.exc.unrecorded.get m = s.exc.unrecorded.get m
  gate : t.gate = s.gate ∨ s.gate = .draining ∧ t.gate = .shut

/-! ### What the barrier's tables come to (R60, R65) -/

/-- What the lower command (R60) makes of a barrier, with EXIT LOOP occupied or clear and BARRIER DOWN SENSE active or not. -/
def Barrier.lowered (b : Barrier) (exit down : Bool) (time : Nat) : Barrier :=
  let moves : Barrier :=
    if down then ⟨.down, none, false, false, none⟩
    else { b with state := .lowering, pending := none, exitHold := false, left := some time }
  match b.state with
  | .down | .lowering => b
  | .up | .raising => if exit then { b with exitHold := true } else moves
  | .fault => if b.faultMark then { b with pending := some .lower } else moves

/-- What a barrier comes to when its OPEN entry is settled by a resolution or a discard (R65): out of FAULT the mark alone
clears; in FAULT the position is found, or the pending motion, a raise only with the verdict formed, is attempted. -/
def Barrier.found (b : Barrier) (up down formed : Bool) (raiseTime lowerTime : Nat) : Barrier :=
  if b.state ≠ .fault then { b with faultMark := false }
  else if b.pending = some .raise ∧ up = true ∧ down = false then ⟨.up, none, false, b.exitHold, none⟩
  else if b.pending = some .lower ∧ down = true ∧ up = false then ⟨.down, none, false, b.exitHold, none⟩
  else if b.pending = some .raise ∧ formed = true then
    if up then ⟨.up, none, false, b.exitHold, none⟩ else ⟨.raising, none, false, b.exitHold, some raiseTime⟩
  else if down then ⟨.down, none, false, false, none⟩
  else ⟨.lowering, none, false, false, some lowerTime⟩

/-! ### The return from TROUBLE (R46) -/

/-- The part as the last hold of a lane ends, with the lane back in a state (R46, R159): the LANE_STATE notice with cause
HOLD_ENDED, and the retry timers of the lane's entries running again at full length. -/
def State.backIn (s : State) (l : LaneNo) (st : LaneState) : State :=
  let x := s.lane l
  let running : Entry → Entry := fun e =>
    if e.state = .opened ∧ e.response = .retry ∧ e.lane = some l then { e with left := some s.store.work.retryInterval } else e
  State.queueNotice ({ s with exc := { s.exc with entries := s.exc.entries.map running } }.setLane l
      { x with state := st, interrupted := none, noted := ⟨false, false, false⟩ })
    ⟨.laneState, [BitVec.ofNat 8 (l.ctorIdx + 1), 7, BitVec.ofNat 8 st.ctorIdx] ++ u16 x.visitNumber ++ [0, 11]⟩

/-- `t` is what the table of R46 makes of a lane in TROUBLE whose last hold has ended, `s` being the part at that moment: the
lane takes up the interrupted state from the visit, the lines and the barrier as they stand. -/
def Returns (s : State) (l : LaneNo) (t : State) : Prop :=
  let x := s.lane l
  let w := s.store.work
  let stop := s.input l .stop
  let loops := s.input l .arrival || stop
  let back (st : LaneState) (f : Lane → Lane) : State := (s.backIn l st).setLane l (f ((s.backIn l st).lane l))
  let abandon (v : Visit) : Option Nat := if loops then v.abandon else some (v.abandon.getD w.abandon)
  let searches (st : LaneState) : Prop := ∀ v, x.visit = some v →
    let resumed (v : Visit) : State := back st fun y => { y with visit := some { v with abandon := abandon v } }
    (v.matchState = .failed → t = (resumed v).attempt l) ∧
    (v.matchState = .waiting → t = (resumed v).tryMatch l) ∧
    (v.matchState = .notTried → t = resumed { v with
      idSettle := if x.noted.idSettle || stop then some w.idSettle else v.idSettle })
  match x.interrupted with
  | some .idle =>
    (x.closePending = true → (t.lane l).state = .closed ∧ (t.lane l).closePending = false ∧ (t.lane l).visit = x.visit ∧
      ∀ e ∈ t.exc.entries, e.lane = some l → e.state ≠ .opened) ∧
    (x.closePending = false → loops = false → t = s.backIn l .idle) ∧
    (x.closePending = false → loops = true → (t.lane l).state = .arriving ∧ t.exc = (s.backIn l .idle).exc ∧ t.book = s.book ∧
      (t.lane l).visit = some { Visit.opening s.nextVisit with idSettle := if stop then some w.idSettle else none })
  | some .arriving => searches .arriving
  | some .awaitingHost => searches .awaitingHost
  | some .checking => ∀ v, x.visit = some v → t = (back .checking fun y => { y with visit := some { v with
      sealWait := if x.noted.sealWait then some w.sealWait else none
      surveyWait := if x.noted.surveyWait then some w.surveyWait else none
      abandon := abandon v } }).settle l
  | some .decided => ∀ v, x.visit = some v →
      t = (if v.bayStep ≠ .pending ∧ v.handed = false then (s.backIn l .decided).handOver l else s.backIn l .decided).testRelease l
  | some .exiting => ∀ v, x.visit = some v →
    let b := x.barrier
    let exit := s.input l .exit
    let passed : Visit := { v with passage := v.passage || exit }
    let green (v : Visit) (b : Barrier) : State := back .exiting fun y => { y with lamp := .green, visit := some v, barrier := b }
    let closes (b : Barrier) (v : Visit) : Prop := t = (green v b).visitClose l ∧ ∀ d, v.verdict = some d →
      t.book = (match v.claimed with
        | some n => s.book.release s.clock.minute n (if d = .turnAway then .turned else .exit)
        | none => s.book) ∧ (t.lane l).lamp = .red ∧
      (if x.closePending then (t.lane l).state = .closed ∧ (t.lane l).visit = none
      else if loops then (t.lane l).state = .arriving else (t.lane l).state = .idle ∧ (t.lane l).visit = none)
    (b.state = .down → closes b v) ∧
    (b.state ≠ .down → v.lowerHeld = false ∨ b.state ≠ .up → t = green passed b) ∧
    (b.state = .up → v.lowerHeld = true →
      (exit = true → t = green { passed with lowerHeld := false } { b with exitHold := true }) ∧
      (exit = false → s.input l .downSense = false →
        t = green { passed with lowerHeld := false } ⟨.lowering, none, b.faultMark, false, some w.lowerTime⟩) ∧
      (exit = false → s.input l .downSense = true → b.faultMark = false →
        closes ⟨.down, none, false, false, none⟩ { passed with lowerHeld := false }))
  | _ => True

/-! ### Requests -/

/-- A request frame can be taken (R170, R171): power is applied, no RESTART waits for a settings write, and the frame is the
first that waits in the receive buffer, or none waits (log 2); `u` is the state without it. -/
def Taken (s : State) (f : Frame) (u : State) : Prop :=
  s.power = true ∧ s.store.restartTag = none ∧
    (s.link.rxBuffer = [] ∧ u = s ∨
      ∃ rest, s.link.rxBuffer = f :: rest ∧ u = { s with link := { s.link with rxBuffer := rest } })

/-- A request of a kind with a tag and a body is taken; the tag 0 is no request's (R170). -/
def Asked (s : State) (kind tag : Byte) (body : List Byte) (u : State) : Prop :=
  tag ≠ 0 ∧ Taken s ⟨tag, kind, body⟩ u

/-- A request of the kind, taken, is answered at once with a status and fields, the part going on as `t` says. -/
def Answers (i : Instr) (s : State) (kind tag : Byte) (t : State) (st : Status) (data : List Byte) : Prop :=
  exec i s = .next (t.reply tag kind st data)

/-! ### The lane that a command concerns -/

/-- The lane that the first byte of a body names. -/
def bodyLane (body : List Byte) : Option LaneNo := body.head?.bind fun b => laneOf b.toNat

/-- The lane that a command of one lane concerns: the lane of an event, or the lane that a request names. The commands of
the part as a whole concern none, and RESET_LANE is not among those of one lane, since a bay that it frees may go to a visit
of another (R150). -/
def laneConcerned : Instr → Option LaneNo
  | .rawLevelChange l _ _ | .settleExpiry l _ | .loopStuckExpiry l _ | .idSettleExpiry l | .lookupTimeout l
  | .abandonExpiry l | .sealWaitExpiry l | .surveyWaitExpiry l | .ready l _ | .signFrameGapTimeout l
  | .stallTimerExpiry l | .raiseTimerExpiry l | .lowerTimerExpiry l | .signFrameReceived l _ => some l
  | .openLane _ body | .closeLane _ body | .getLane _ body | .keyedBooking _ body | .lookupAnswer _ body
  | .forceLine _ body | .unforceLine _ body | .plateRead _ body | .idRead _ body | .sealRead _ body | .survey _ body
  | .override _ body | .unoverride _ body | .signText _ body | .getSign _ body | .resolveLane _ body => bodyLane body
  | .powerOnReset | .frameReceived _ | .frameGapTimeout | .unknownKind _ _ _ | .replySend | .noticeSend | .book _ _
  | .amend _ _ | .cancel _ _ | .getBooking _ _ | .getWindows _ _ | .setCapacity _ _ | .setClock _ _ | .getClock _ _
  | .gateClockSecond | .resetLane _ _ | .holdAdd _ _ | .holdRemove _ _ | .getHolds _ _ | .retryTimerExpiry _
  | .resolve _ _ | .retryAgain _ _ | .clearResolved _ _ | .getExceptions _ _ | .bayRelease _ _ | .waitRemove _ _
  | .getBays _ _ | .set _ _ | .get _ _ | .saveSettings _ _ | .saveComplete | .loadSettings _ _ | .defaultSettings _ _
  | .gateOpen _ _ | .gateShut _ _ | .restart _ _ | .getCounters _ _ | .identify _ _ | .powerLoss => none

/-! ### The books (R1, R6) -/

/-- The final states of a booking (section 1.1.1). -/
def BookingState.isFinal : BookingState → Bool
  | .admitted | .cancelled | .noShow => true
  | .opened | .inLane => false

/-- The units of the bookings of a window in some states. -/
def BookUnit.unitsIn (b : BookUnit) (w : Nat) (p : BookingState → Bool) : Nat :=
  ((b.table.filter fun k => decide (k.window = w) && p k.state).map (·.units)).sum

/-- The books balance (R1, R6): no number stands twice and no more than 2048 records; every record has a window and units and
is claimed exactly while IN_LANE; the finalisation order list names every record in a final state once; booked units of a
window are the units of its OPEN and IN_LANE bookings, admitted units those of its ADMITTED ones; over flags are right. -/
structure BookUnit.Balanced (b : BookUnit) : Prop where
  size : b.table.length ≤ Config.bookingMax
  numbers : (b.table.map (·.number)).Nodup
  records : ∀ k ∈ b.table, k.window < Config.windowCount ∧ 1 ≤ k.units ∧ (k.claim.isSome = true ↔ k.state = .inLane)
  once : b.final.Nodup
  finals : ∀ n, n ∈ b.final ↔ ∃ k ∈ b.table, k.number = n ∧ k.state.isFinal = true
  windows : b.windows.length = Config.windowCount
  booked : ∀ w < Config.windowCount, (b.window w).booked = b.unitsIn w fun st => st == .opened || st == .inLane
  admitted : ∀ w < Config.windowCount, (b.window w).admitted = b.unitsIn w fun st => st == .admitted
  flags : b.overFlagsRight

/-- The books agree with the lanes (R1, R20, R24, R30): they balance; the clock stands inside a day; every booking that is claimed
is claimed by the visit that its lane holds, and every visit with a claim has claimed that booking, is matched and looks up
nothing more; a lane that is, or was interrupted, in CLOSED or IDLE holds no visit, in ARRIVING or AWAITING_HOST none with a
claim. -/
structure Booked (s : State) : Prop where
  books : s.book.Balanced
  minute : s.clock.minute < 1440
  held : ∀ k ∈ s.book.table, ∀ l n, k.claim = some (l, n) →
    ∃ v, s.visit l = some v ∧ v.number = n ∧ v.claimed = some k.number
  claims : ∀ l v n, s.visit l = some v → v.claimed = some n →
    v.matchState = .claimed ∧ v.lookup = none ∧ ∃ k ∈ s.book.table, k.number = n ∧ k.claim = some (l, v.number)
  idle : ∀ l, (s.lane l).under = .closed ∨ (s.lane l).under = .idle → s.visit l = none
  search : ∀ l v, (s.lane l).under = .arriving ∨ (s.lane l).under = .awaitingHost → s.visit l = some v → v.claimed = none

end Sys2Proof.Machine
end

