-- ==== Sys2Proof/Certificates/Slice0/Obligations.lean ====
section
/-! DEFINITION. The statements about the SG-8 for the provers. -/

open Sys2Proof Sys2Proof.Machine

/-! ### The queue of commands, resets, power -/

/-- The command at the front of the queue is taken and acts on the part with the rest of the queue. -/
def Obligations.FrontCommandRuns : Prop :=
  ∀ (s : State) (c : Instr) (rest : List Instr), step { s with pending := c :: rest } = exec c { s with pending := rest }

/-- On an empty queue: nothing without power; a due timer, a ready message or a waiting request acts as its command;
else 10 ms pass. The order of these is the model's choice (log 1). -/
def Obligations.EmptyQueueGoesOn : Prop :=
  ∀ s : State, s.pending = [] →
    (s.power = false → step s = .next s) ∧
    (s.power = true → ∀ i, s.nextAct = some i → step s = exec i s) ∧
    (s.power = true → s.nextAct = none → (s.phase + 1) % 10 ≠ 0 →
      step s = .next { s with lanes := s.lanes.map Lane.tickSettles, phase := (s.phase + 1) % 100 }) ∧
    (s.power = true → s.nextAct = none → (s.phase + 1) % 10 = 0 → (s.phase + 1) % 100 ≠ 0 →
      step s = .next (State.tickTimers
        { s with lanes := s.lanes.map Lane.tickSettles, phase := (s.phase + 1) % 100 })) ∧
    (s.power = true → s.nextAct = none → (s.phase + 1) % 100 = 0 →
      step s = exec .gateClockSecond (State.tickTimers { s with lanes := s.lanes.map Lane.tickSettles, phase := 0 }))

/-- POWER_ON_RESET puts the part into the states of R180, from any state. -/
def Obligations.PowerOnReset : Prop :=
  ∀ s : State, ∃ t, exec .powerOnReset s = .next t ∧ t.power = true ∧
    t.book.table = [] ∧ t.book.final = [] ∧ t.holds = [] ∧ t.pool.waiting = [] ∧
    t.book.windows = List.replicate 96 ⟨t.store.work.defaultCapacity, 0, 0, false, false⟩ ∧
    t.clock = ⟨0, 0, 0, false⟩ ∧ t.gate = .shut ∧ t.nextVisit = 1 ∧
    t.pool.bays = List.replicate t.store.work.bayCount none ∧
    t.store.saving = none ∧ t.store.restartTag = none ∧
    t.link.rxPart = [] ∧ t.link.rxBuffer = [] ∧ t.link.lostByte = 0 ∧ t.link.badFrames = 0 ∧ t.link.overflows = 0 ∧
    t.link.noticesLost = 0 ∧ t.exc.lost = 0 ∧ t.exc.full = false ∧ t.exc.unrecorded = .fill false ∧
    (∀ l, (t.lane l).state = .closed ∧ (t.lane l).interrupted = none ∧ (t.lane l).closePending = false ∧
      (t.lane l).visit = none ∧ (t.lane l).lamp = .red ∧ (t.lane l).counters = .zero ∧
      (∀ i, ((t.lane l).lines.get i).force = none ∧ ((t.lane l).lines.get i).pending = none ∧
        ((t.lane l).lines.get i).raw = ((s.lane l).lines.get i).raw ∧
        t.input l i = (((s.lane l).lines.get i).raw != t.activeLow l i)) ∧
      (∀ k, (t.lane l).stuck.get k = ⟨none, false⟩) ∧
      (t.lane l).barrier =
        (if t.input l .downSense then ⟨.down, none, false, false, none⟩ else ⟨.fault, some .lower, false, false, none⟩) ∧
      (t.lane l).sign = ⟨[], 0, none, false, [], (s.lane l).sign.out ++ [encodeFrame 0 3 []]⟩) ∧
    (s.store.saving = none → t.store.image = s.store.image) ∧
    (∀ w, t.store.image = .whole w → t.store.work = w ∧ t.exc.entries = [] ∧ t.exc.next = 1 ∧ t.link.outbox = []) ∧
    ((∀ w, t.store.image ≠ .whole w) →
      t.store.work = .default ∧ t.exc.next = 2 ∧
      t.exc.entries = [⟨1, .settingsRestored, none, none, none, 0, 0, .note, 0, .logged, none, none, false⟩] ∧
      t.link.outbox = [.notice ⟨.exception, [1, 0, 20, 0, 0, 0, 0, 0, 0, 0, 2, 0, 1, 0, 0]⟩])

/-- POWER_LOSS: the part stops as it stands; a settings write under way is cut short, and what it leaves of the image is
open: incomplete, as before, or written (R174; logs 7 and 27). Without power no command changes the part but
POWER_ON_RESET, and RAW_LEVEL_CHANGE changes the raw level alone (R180; log 27). -/
def Obligations.PowerLoss : Prop :=
  (∀ s : State, s.power = true →
    (s.store.saving = none → exec .powerLoss s = .next { s with power := false }) ∧
    (∀ j, s.store.saving = some j → ∃ image, exec .powerLoss s = .next
        { s with power := false, freeIndex := s.freeIndex + 1, store := ⟨s.store.work, image, none, none⟩ } ∧
      (image = .incomplete ∨ image = s.store.image ∨ image = .whole j.image))) ∧
  ∀ (i : Instr) (s : State), s.power = false → i ≠ .powerOnReset →
    match i with
    | .rawLevelChange l k b => exec i s = .next (s.modLine l k fun r => { r with raw := b })
    | _ => exec i s = .next s

/-- RESTART with no settings write under way: power-on values but for the working settings, the Gate Clock with the windows
expired by it, and what R182 keeps of the link; then its reply, OK. During a write it waits (R171). -/
def Obligations.Restart : Prop :=
  ∀ (s u : State) (tag : Byte), Asked s 0x2A tag [] u →
    (u.store.saving = none → ∃ t, exec (.restart tag []) s = .next t ∧
      t.store = u.store ∧ t.clock = u.clock ∧ t.gate = .shut ∧ t.nextVisit = 1 ∧ t.holds = [] ∧
      t.book.table = [] ∧ t.book.final = [] ∧ t.book.windows.length = 96 ∧
      (∀ w < 96, t.book.window w = ⟨u.store.work.defaultCapacity, 0, 0,
        u.clock.valid && decide (w < 48) && decide (30 * w + 30 + u.store.work.lateGrace ≤ u.clock.minute), false⟩) ∧
      t.exc = ⟨[], 0, false, .fill false, 1⟩ ∧ t.pool = ⟨List.replicate u.store.work.bayCount none, []⟩ ∧
      (∀ l, (t.lane l).state = .closed ∧ (t.lane l).visit = none ∧ (t.lane l).lamp = .red ∧
        (t.lane l).closePending = false ∧ (t.lane l).counters = .zero ∧
        (∀ i, ((t.lane l).lines.get i).force = none ∧ t.input l i = (((u.lane l).lines.get i).raw != u.activeLow l i)) ∧
        (t.lane l).barrier =
          (if t.input l .downSense then ⟨.down, none, false, false, none⟩ else ⟨.fault, some .lower, false, false, none⟩) ∧
        (t.lane l).sign = ⟨[], 0, none, false, [], (u.lane l).sign.out ++ [encodeFrame 0 3 []]⟩) ∧
      t.link.rxBuffer = u.link.rxBuffer ∧ t.link.rxPart = u.link.rxPart ∧ t.link.sent = u.link.sent ∧
      t.link.lostByte = 0 ∧ t.link.badFrames = 0 ∧ t.link.overflows = 0 ∧ t.link.noticesLost = 0 ∧
      t.link.outbox = (u.link.outbox.filter fun m => match m with | .reply _ => true | .notice _ => false)
        ++ [.reply ⟨tag, 0xAA, .ok, []⟩] ∧
      t.power = u.power ∧ t.pending = u.pending ∧ t.freeIndex = u.freeIndex) ∧
    (u.store.saving.isSome = true →
      exec (.restart tag []) s = .next { u with store := { u.store with restartTag := some tag } })

/-! ### Whole-machine statements -/

/-- The state after reset is sound, and its books agree with its lanes. -/
def Obligations.ResetIsSound : Prop := Sound State.reset ∧ Booked State.reset

/-- Every step from a sound state answers a next state, and it is sound: tables, queues, direction queues, sign credits, the
receive buffer and windows keep to their sizes, over flags are right, entries stand in ascending number, and every setting
lies in its range. -/
def Obligations.EveryStepKeepsSound : Prop :=
  ∀ s : State, Sound s → ∃ t, step s = .next t ∧ Sound t

/-- What a command does that concerns one lane leaves every other lane as it is, with its unrecorded-hold flag, the Gate
Clock, the Hold List, the settings, and the gate mode but for DRAINING to SHUT. -/
def Obligations.LanesAreApart : Prop :=
  ∀ (i : Instr) (l : LaneNo) (s t : State), laneConcerned i = some l → Bounds s → exec i s = .next t →
    (∀ m, m ≠ l → t.lane m = s.lane m) ∧ (∀ m, m ≠ l → t.exc.unrecorded.get m = s.exc.unrecorded.get m) ∧
    t.clock = s.clock ∧ t.holds = s.holds ∧ t.store = s.store ∧
    (t.gate = s.gate ∨ s.gate = .draining ∧ t.gate = .shut)

/-- A request frame taken, other than SAVE_SETTINGS and RESTART, is answered with exactly one reply, which carries its tag
and stands behind every notice that the request causes. -/
def Obligations.OneReplyToEachRequest : Prop :=
  ∀ (s u : State) (tag kind : Byte) (body : List Byte), Bounds s → Taken s ⟨tag, kind, body⟩ u →
    kind ≠ 0x25 → kind ≠ 0x2A →
    ∃ (t : State) (ns : List Notice) (st : Status) (data : List Byte), exec (commandOfFrame tag kind body) s = .next t ∧
      t.link.outbox = s.link.outbox ++ ns.map OutMsg.notice
        ++ [.reply ⟨tag, if kind.toNat < 0x80 then kind + 0x80 else 0xFF, st, data⟩]

/-- Decoding frames undoes encoding them: from bytes without a start marker followed by whole frames with bodies of at most
500 bytes, the receiver takes exactly those frames, counts no bad frame and keeps no byte. -/
def Obligations.FramesRoundTrip : Prop :=
  ∀ (junk : List Byte) (fs : List Frame), (0xA5 : Byte) ∉ junk → (∀ f ∈ fs, f.body.length ≤ 500) →
    receive (junk ++ fs.flatMap fun f => encodeFrame f.tag f.kind f.body) = ⟨fs, 0, []⟩

/-- Bytes may arrive in pieces: two arrivals one after the other come to the same state as one arrival of all the bytes, for a
receiver that holds no finished work; and an arrival leaves none. -/
def Obligations.BytesInPieces : Prop :=
  ∀ (s t : State) (a b : List Byte), s.power = true →
    receive s.link.rxPart = ⟨[], 0, s.link.rxPart⟩ → exec (.frameReceived a) s = .next t →
    receive t.link.rxPart = ⟨[], 0, t.link.rxPart⟩ ∧
      exec (.frameReceived b) t = exec (.frameReceived (a ++ b)) s

/-- Every step keeps the books in agreement with the lanes (R1, R6, R20, R24): booked and admitted units of every window are those
of its bookings, the finalisation order list names every final record once, over flags are right, and a booking is claimed
exactly by the visit that holds it. -/
def Obligations.BooksBalance : Prop :=
  ∀ s t : State, Sound s → Booked s → step s = .next t → Booked t

/-- The command that a request frame names, for every tag, kind and body: a kind of the catalogue with a tag other than 0 is the
command of that kind, and the tag 0 and every other kind are UNKNOWN_KIND. With nothing due and nothing ready, a step takes the
frame that waits first as its command (log 1). -/
def Obligations.FramesNameCommands : Prop :=
  (∀ (tag : Byte) (body : List Byte), tag ≠ 0 →
    let named (kind : Byte) (i : Byte → List Byte → Instr) : Prop := commandOfFrame tag kind body = i tag body
    named 0x01 .book ∧ named 0x02 .amend ∧ named 0x03 .cancel ∧ named 0x04 .getBooking ∧ named 0x05 .getWindows ∧
    named 0x06 .setCapacity ∧ named 0x07 .setClock ∧ named 0x08 .getClock ∧ named 0x09 .openLane ∧
    named 0x0A .closeLane ∧ named 0x0B .resetLane ∧ named 0x0C .getLane ∧ named 0x0D .keyedBooking ∧
    named 0x0E .lookupAnswer ∧ named 0x0F .forceLine ∧ named 0x10 .unforceLine ∧ named 0x11 .plateRead ∧
    named 0x12 .idRead ∧ named 0x13 .sealRead ∧ named 0x14 .survey ∧ named 0x15 .holdAdd ∧ named 0x16 .holdRemove ∧
    named 0x17 .override ∧ named 0x18 .unoverride ∧ named 0x19 .signText ∧ named 0x1A .getSign ∧
    named 0x1B .bayRelease ∧ named 0x1C .waitRemove ∧ named 0x1D .getBays ∧ named 0x1E .resolve ∧
    named 0x1F .resolveLane ∧ named 0x20 .retryAgain ∧ named 0x21 .clearResolved ∧ named 0x22 .getExceptions ∧
    named 0x23 .set ∧ named 0x24 .get ∧ named 0x25 .saveSettings ∧ named 0x26 .loadSettings ∧
    named 0x27 .defaultSettings ∧ named 0x28 .gateOpen ∧ named 0x29 .gateShut ∧ named 0x2A .restart ∧
    named 0x2B .getCounters ∧ named 0x2C .getHolds ∧ named 0x2D .identify) ∧
  (∀ (tag kind : Byte) (body : List Byte), tag = 0 ∨ kind = 0 ∨ 0x2D < kind.toNat →
    commandOfFrame tag kind body = .unknownKind tag kind body) ∧
  ∀ (s : State) (f : Frame) (rest : List Frame), s.power = true → s.pending = [] → s.dueTimers = [] → s.link.outbox = [] →
    s.store.restartTag = none → s.link.rxBuffer = f :: rest → step s = exec (commandOfFrame f.tag f.kind f.body) s

/-! ### The command link (spec/11 sections 11.1, 11.2) -/

/-- Bytes at a hunting receiver: a whole frame is placed behind the waiting ones if it fits 2048 bytes (log 29), else counted
as an overflow; a length out of range and a wrong CRC count one bad frame. Nothing else changes. A gap inside a frame discards
it, counted on the command link alone, and the bytes behind its marker are heard anew (log 20); while the receiver hunts the
event changes nothing. -/
def Obligations.FramesAreReceived : Prop :=
  (∀ (s : State), s.power = true → s.link.rxPart = [] → s.link.badFrames ≤ 65535 →
    (∀ f : Frame, f.body.length ≤ 500 → exec (.frameReceived (encodeFrame f.tag f.kind f.body)) s = .next { s with
      link :=
        if (s.link.rxBuffer.map fun g => 7 + g.body.length).sum + (7 + f.body.length) ≤ 2048 then
          { s.link with rxBuffer := s.link.rxBuffer ++ [f] }
        else { s.link with overflows := min 65535 (s.link.overflows + 1) } }) ∧
    (∀ lo hi : Byte, lo ≠ 0xA5 → hi ≠ 0xA5 → lo.toNat + 256 * hi.toNat < 2 ∨ 502 < lo.toNat + 256 * hi.toNat →
      exec (.frameReceived [0xA5, lo, hi]) s = .next { s with
        link := { s.link with badFrames := min 65535 (s.link.badFrames + 1) } }) ∧
    (∀ (tag kind : Byte) (body crc : List Byte), body.length ≤ 500 → crc.length = 2 →
      crc ≠ u16 (crc16 (framePayload tag kind body)).toNat → (0xA5 : Byte) ∉ framePayload tag kind body ++ crc →
      exec (.frameReceived (0xA5 :: (framePayload tag kind body ++ crc))) s = .next { s with
        link := { s.link with badFrames := min 65535 (s.link.badFrames + 1) } })) ∧
  ∀ s : State, s.power = true →
    (s.link.rxPart = [] → exec .frameGapTimeout s = .next s) ∧
    (∀ (b : Byte) (rest : List Byte), s.link.rxPart = b :: rest →
      exec .frameGapTimeout s = exec (.frameReceived rest) { s with
        link := { s.link with rxPart := [], badFrames := min 65535 (s.link.badFrames + 1) } } ∧
      ((0xA5 : Byte) ∉ rest → exec .frameGapTimeout s = .next { s with
        link := { s.link with rxPart := [], badFrames := min 65535 (s.link.badFrames + 1) } })) ∧
    ∀ l : LaneNo,
      ((s.lane l).sign.rx = [] → exec (.signFrameGapTimeout l) s = .next s) ∧
      ∀ (b : Byte) (rest : List Byte), (s.lane l).sign.rx = b :: rest →
        exec (.signFrameGapTimeout l) s =
          exec (.signFrameReceived l rest) (s.modLane l fun x => { x with sign := { x.sign with rx := [] } }) ∧
        ((0xA5 : Byte) ∉ rest → exec (.signFrameGapTimeout l) s =
          .next (s.modLane l fun x => { x with sign := { x.sign with rx := [] } }))

/-- A frame taken with tag 0 is answered MALFORMED, one of a kind outside 0x01 to 0x2D UNKNOWN_KIND, and a request of each
kind whose body does not fit its fields MALFORMED (the layouts of bodies: log 3; a clear mark of GET_COUNTERS other than 0 and
1: log 40). None changes anything. -/
def Obligations.FramesThatAreNoRequests : Prop :=
  ∀ (s u : State) (tag kind : Byte) (body : List Byte), Taken s ⟨tag, kind, body⟩ u →
    let bad (st : Status) : Out := .next { u with
      link := { u.link with
        outbox := u.link.outbox ++ [.reply ⟨tag, if kind.toNat < 0x80 then kind + 0x80 else 0xFF, st, []⟩] } }
    let malformed {α : Type} (k : Byte) (p : Reader α) (i : Byte → List Byte → Instr) : Prop :=
      kind = k → readAll p body = none → exec (i tag body) s = bad .malformed
    (tag = 0 → exec (.unknownKind tag kind body) s = bad .malformed) ∧
    (tag ≠ 0 → kind = 0 ∨ 0x2D < kind.toNat → exec (.unknownKind tag kind body) s = bad .unknownKind) ∧
    malformed 0x01 readBook .book ∧ malformed 0x02 readAmend .amend ∧ malformed 0x03 readU32 .cancel ∧
    malformed 0x04 readU32 .getBooking ∧ malformed 0x05 (readPair readU8 readU8) .getWindows ∧
    malformed 0x06 readCapacity .setCapacity ∧ malformed 0x07 readClock .setClock ∧
    malformed 0x08 readNothing .getClock ∧ malformed 0x09 readU8 .openLane ∧ malformed 0x0A readU8 .closeLane ∧
    malformed 0x0B readU8 .resetLane ∧ malformed 0x0C readU8 .getLane ∧
    malformed 0x0D (readPair readU8 readU32) .keyedBooking ∧ malformed 0x0E readAnswer .lookupAnswer ∧
    malformed 0x0F readForce .forceLine ∧ malformed 0x10 readUnforce .unforceLine ∧
    malformed 0x11 (readPair readU8 readText) .plateRead ∧ malformed 0x12 readId .idRead ∧
    malformed 0x13 readSeal .sealRead ∧ malformed 0x14 readSurvey .survey ∧ malformed 0x15 readHoldAdd .holdAdd ∧
    malformed 0x16 readHoldRemove .holdRemove ∧ malformed 0x17 readOverride .override ∧
    malformed 0x18 readUnoverride .unoverride ∧ malformed 0x19 (readPair readU8 readText) .signText ∧
    malformed 0x1A readU8 .getSign ∧ malformed 0x1B (readPair readU8 (readOpt readU16)) .bayRelease ∧
    malformed 0x1C readU16 .waitRemove ∧ malformed 0x1D readNothing .getBays ∧ malformed 0x1E readResolve .resolve ∧
    malformed 0x1F readU8 .resolveLane ∧ malformed 0x20 readU16 .retryAgain ∧
    malformed 0x21 readNothing .clearResolved ∧ malformed 0x22 readU16 .getExceptions ∧ malformed 0x23 readSet .set ∧
    malformed 0x24 (readPair readU8 readU8) .get ∧ malformed 0x25 readNothing .saveSettings ∧
    malformed 0x26 readNothing .loadSettings ∧ malformed 0x27 readNothing .defaultSettings ∧
    malformed 0x28 readNothing .gateOpen ∧ malformed 0x29 readNothing .gateShut ∧ malformed 0x2A readNothing .restart ∧
    malformed 0x2B (readEnum [false, true]) .getCounters ∧ malformed 0x2C readNothing .getHolds ∧
    malformed 0x2D readNothing .identify

/-- The message first in the order of readiness leaves: a reply as its frame with the status first in the body, a notice as
its frame of tag 0 with the notices-lost count first, which becomes 0. The other sender waits. A RESTART that waited for a
settings write acts once no reply is left to send, as though it came then (R171); until then nothing else happens. -/
def Obligations.MessagesLeaveInOrder : Prop :=
  ∀ s : State, s.power = true →
    (∀ r rest, s.link.outbox = .reply r :: rest →
      let left : State := { s with link := { s.link with
        outbox := rest
        sent := s.link.sent ++ [encodeFrame r.tag r.kind (BitVec.ofNat 8 r.status.ctorIdx :: r.data)] } }
      (s.store.restartTag = none ∨ s.store.saving ≠ none ∨ (∃ q, .reply q ∈ rest) → exec .replySend s = .next left) ∧
      (∀ tag, s.store.restartTag = some tag → tag ≠ 0 → s.store.saving = none → (∀ q, .reply q ∉ rest) →
        exec .replySend s = exec (.restart tag []) { left with
          store := { s.store with restartTag := none }
          link := { left.link with rxBuffer := ⟨tag, 0x2A, []⟩ :: s.link.rxBuffer } }) ∧
      exec .noticeSend s = .next s) ∧
    (∀ n rest, s.link.outbox = .notice n :: rest →
      exec .noticeSend s = .next { s with link := { s.link with
        outbox := rest, lostByte := 0
        sent := s.link.sent ++
          [encodeFrame 0 (BitVec.ofNat 8 (0x60 + n.kind.ctorIdx)) (BitVec.ofNat 8 s.link.lostByte :: n.data)] } } ∧
      exec .replySend s = .next s) ∧
    (s.link.outbox = [] → exec .replySend s = .next s ∧ exec .noticeSend s = .next s)

/-! ### Bookings and windows (spec/01) -/

/-- A BOOK taken is tested in the order of R2 to R4, and the first test that fails gives the reply and changes nothing. One that
passes them makes an OPEN booking and raises the booked units of its window; in a full table it first reclaims the record at
the head of the finalisation order list, and is refused with FULL if there is none (R5). -/
def Obligations.BookIsTestedAndMade : Prop :=
  ∀ (s u : State) (tag : Byte) (body : List Byte) (r : BookReq), Asked s 0x01 tag body u → readAll readBook body = some r →
    u.book.windows.length = 96 → u.book.overFlagsRight →
    let w := u.book.window r.window
    let ms := r.moves.map MoveReq.move
    let units := (ms.map fun m => if m.length = .l20 then 1 else 2).sum
    let refused (st : Status) : Prop := Answers (.book tag body) s 0x01 tag u st []
    let k : Booking := ⟨r.number, .opened, r.window, r.plate, ms, units, none, false, none⟩
    if r.formed = false then refused .malformed
    else if r.inRange = false then refused .range
    else if movesOk ms = false then refused .malformed
    else if u.book.collides r.number ms = true then refused .duplicate
    else if w.expired = true then refused .range
    else if w.capacity < w.booked + w.admitted + units then refused .noCapacity
    else if u.book.table.length < 2048 then
      ∃ c : BookUnit, Answers (.book tag body) s 0x01 tag { u with book := c } .ok
          (u32 r.number ++ u8 units ++ u16 (w.capacity - (w.booked + units) - w.admitted)) ∧
        c.table = u.book.table ++ [k] ∧ c.final = u.book.final ∧ c.windows.length = 96 ∧
        c.window r.window = ⟨w.capacity, w.booked + units, w.admitted, false, false⟩ ∧
        ∀ v, v ≠ r.window → c.window v = u.book.window v
    else match u.book.final with
      | [] => refused .full
      | n :: rest =>
        let gone (v : Nat) : Nat :=
          if (u.book.find n).any fun x => x.state == .admitted && x.window == v then
            ((u.book.find n).map Booking.units).getD 0
          else 0
        let held (v : Nat) : Nat := (u.book.window v).admitted - gone v
        ∃ c : BookUnit, Answers (.book tag body) s 0x01 tag { u with book := c } .ok
            (u32 r.number ++ u8 units ++ u16 (w.capacity - (w.booked + units) - held r.window)) ∧
          c.table = u.book.table.filter (fun x => x.number ≠ n) ++ [k] ∧ c.final = rest ∧ c.windows.length = 96 ∧
          c.window r.window = ⟨w.capacity, w.booked + units, held r.window, false, false⟩ ∧
          ∀ v, v ≠ r.window → v < 96 → c.window v =
            { u.book.window v with
              admitted := held v, overFlag := decide ((u.book.window v).capacity < (u.book.window v).booked + held v) }

/-- AMEND (R9, R10): its tests in order; all the changes of an OPEN booking are made together, a new window taking its units
with it; an IN_LANE booking takes the changes into its record, and while its visit is not decided the seal part of a move with
new declared seals is worked out anew, unless it is final (R11, R97), and a lane in CHECKING tests its conditions. The layout
of the body (log 3), and that a seal list of more than two or of two equal texts is MALFORMED (log 43), are the model's
choice. -/
def Obligations.AmendIsTestedAndMade : Prop :=
  ∀ (s u : State) (tag : Byte) (body : List Byte) (r : AmendReq), Asked s 0x02 tag body u →
    readAll readAmend body = some r → u.book.windows.length = 96 →
    let ok (b : BookUnit) : Prop := Answers (.amend tag body) s 0x02 tag { u with book := b } .ok []
    let refused (st : Status) : Prop := Answers (.amend tag body) s 0x02 tag u st []
    (u.book.find r.number = none → refused .notFound) ∧
    ∀ k, u.book.find r.number = some k →
      let changed (w : Nat) : List Booking := u.book.table.map fun x =>
        if x.number = r.number then { x with window := w, plate := r.plate.getD x.plate, moves := r.moves x.moves } else x
      let keep : List Booking := u.book.table.map fun x =>
        if x.number = r.number then { x with plate := r.plate.getD x.plate, moves := r.moves x.moves } else x
      (r.formed k.moves = false → refused .malformed) ∧
      (r.formed k.moves = true → r.inRange = false → refused .range) ∧
      (r.formed k.moves = true → r.inRange = true →
        (k.state.isFinal = true → refused .wrongState) ∧
        (k.state = .inLane → r.window.isSome = true → refused .wrongState) ∧
        (k.state = .inLane → r.window = none → (∀ l n, k.claim = some (l, n) → u.undecided l (some n) = false) →
          ok { u.book with table := keep }) ∧
        (k.state = .inLane → r.window = none → ∀ l v, k.claim = some (l, v.number) → u.visit l = some v →
          v.claimed = some r.number → v.verdict = none →
          let u1 : State := { u with book := { u.book with table := keep } }
          let judged (t : State) : Prop := Answers (.amend tag body) s 0x02 tag t .ok []
          (r.seals = none ∨ (∀ place xs, r.seals = some (place, xs) → ∀ p b, (v.pos p).sealPart.move ≠ some (place, b)) →
            judged (u1.settle l)) ∧
          ∀ place xs p b, r.seals = some (place, xs) → (v.pos p).sealPart.move = some (place, b) →
            (∀ c, (v.pos p.other).sealPart.move ≠ some (place, c)) →
            let x := (v.pos p).sealPart
            (x.final = true ∨ b = .expected ∧ x.phase = .opened → judged (u1.settle l)) ∧
            (x.final = false → ¬(b = .expected ∧ x.phase = .opened) →
              ∀ m, moveAt (r.moves k.moves) place = some m →
              let o := sealOutcome m x.seen x.phase
              ∃ t, judged t ∧ t.book = u1.book ∧
                (t.visit l).map (fun w => ((w.pos p).sealPart.outcome, (w.pos p).sealPart.phase, (w.pos p).sealPart.seen)) =
                  some (o, if o = .ok then .closed else x.phase, x.seen) ∧
                (t.visit l).map (fun w => (w.pos p.other).sealPart) = some (v.pos p.other).sealPart)) ∧
        (k.state = .opened → (∀ w, r.window = some w → w = k.window) → ok { u.book with table := keep }) ∧
        (k.state = .opened → ∀ w, r.window = some w → w ≠ k.window →
          let v := u.book.window w
          (v.expired = true → refused .range) ∧
          (v.expired = false → v.capacity < v.booked + v.admitted + k.units → refused .noCapacity) ∧
          (v.expired = false → v.booked + v.admitted + k.units ≤ v.capacity → k.window < 96 → ∃ b : BookUnit, ok b ∧
            b.table = changed w ∧ b.final = u.book.final ∧
            b.window w = { v with booked := v.booked + k.units, overFlag := false } ∧
            b.window k.window = Window.evalOver
              { u.book.window k.window with booked := (u.book.window k.window).booked - k.units } ∧
            ∀ x, x ≠ w → x ≠ k.window → b.window x = u.book.window x)))

/-- CANCEL and GET_BOOKING (R12, R13): NOT_FOUND; an OPEN booking becomes CANCELLED, leaves its window and joins the
finalisation order list; in any other state WRONG_STATE; the report gives every field of the record (their order: log 21;
marks: log 28). -/
def Obligations.CancelAndReport : Prop :=
  ∀ (s u : State) (tag : Byte) (body : List Byte) (n : Nat), readAll readU32 body = some n → u.book.windows.length = 96 →
    (Asked s 0x03 tag body u →
      (u.book.find n = none → Answers (.cancel tag body) s 0x03 tag u .notFound []) ∧
      ∀ k, u.book.find n = some k →
        (k.state ≠ .opened → Answers (.cancel tag body) s 0x03 tag u .wrongState []) ∧
        (k.state = .opened → k.window < 96 → ∃ b : BookUnit,
          Answers (.cancel tag body) s 0x03 tag { u with book := b } .ok [] ∧
          b.table = u.book.table.map (fun x => if x.number = n then { x with state := .cancelled } else x) ∧
          b.final = u.book.final ++ [n] ∧
          b.window k.window = Window.evalOver
            { u.book.window k.window with booked := (u.book.window k.window).booked - k.units } ∧
          ∀ v, v ≠ k.window → b.window v = u.book.window v)) ∧
    (Asked s 0x04 tag body u →
      (u.book.find n = none → Answers (.getBooking tag body) s 0x04 tag u .notFound []) ∧
      ∀ k, u.book.find n = some k → Answers (.getBooking tag body) s 0x04 tag u .ok
        (u32 k.number ++ u8 k.state.ctorIdx ++ u8 k.window ++ optField textField k.plate
          ++ listField (fun m : Move => u8 m.kind.ctorIdx ++ u8 m.length.ctorIdx ++ optField textField m.cid
              ++ listField textField m.seals ++ u16 m.known ++ textField m.block ++ u8 m.row
              ++ optField (fun x : Bool => if x then [0] else [1])
                (if m.kind = .pickImport then some m.released else none)) k.moves
          ++ u8 k.units ++ flag k.moved ++ optField (fun x : LaneNo × Nat => u8 (x.1.ctorIdx + 1) ++ u16 x.2) k.claim
          ++ optField u16 k.admittedMinute))

/-- GET_WINDOWS (R8) reports the windows of the range in order, each with its number, capacity, booked units, admitted units,
expired flag and over flag, and changes nothing; a range that R8 refuses is answered RANGE. The count byte and the sizes and
order of the fields are log 21's (R168), the marks as 1 and 0 log 28's. -/
def Obligations.GetWindowsReports : Prop :=
  ∀ (s u : State) (tag : Byte) (body : List Byte) (first last : Nat), Asked s 0x05 tag body u →
    readAll (readPair readU8 readU8) body = some (first, last) →
    (last < first ∨ 95 < first ∨ 95 < last ∨ 48 < last + 1 - first →
      Answers (.getWindows tag body) s 0x05 tag u .range []) ∧
    (first ≤ last → last ≤ 95 → last + 1 - first ≤ 48 → Answers (.getWindows tag body) s 0x05 tag u .ok
      (u8 (last + 1 - first) ++ ((List.range (last + 1 - first)).map (· + first)).flatMap fun n =>
        let w := u.book.window n
        u8 n ++ u16 w.capacity ++ u16 w.booked ++ u16 w.admitted ++ (if w.expired then [1] else [0])
          ++ (if w.overFlag then [1] else [0])))

/-- SET_CAPACITY (R7) gives every window of the range the value, at most 255, evaluates its over flag, moves no booking and
answers OK, or CLAMPED for a value above 255; a range that R7 refuses changes nothing. -/
def Obligations.SetCapacitySets : Prop :=
  ∀ (s u : State) (tag : Byte) (body : List Byte) (r : CapacityReq), Asked s 0x06 tag body u →
    readAll readCapacity body = some r →
    (r.last < r.first ∨ 95 < r.first ∨ 95 < r.last → Answers (.setCapacity tag body) s 0x06 tag u .range []) ∧
    (r.first ≤ r.last → r.last ≤ 95 → u.book.windows.length = 96 → ∃ b : BookUnit,
      Answers (.setCapacity tag body) s 0x06 tag { u with book := b } (if 255 < r.value then .clamped else .ok) [] ∧
      b.table = u.book.table ∧ b.final = u.book.final ∧
      (∀ v, r.first ≤ v → v ≤ r.last →
        let x := u.book.window v
        b.window v = ⟨min 255 r.value, x.booked, x.admitted, x.expired,
          decide (min 255 r.value < x.booked + x.admitted)⟩) ∧
      ∀ v, (v < r.first ∨ r.last < v) → b.window v = u.book.window v)

/-- SET_CLOCK (R15), and the second of the Gate Clock (R14): what each refuses, what it sets, and where it runs the expiry
test and the rollover. Two choices of the model: a setting begins a new second (log 26), and on a valid clock the same day
with the same minute runs no expiry test (log 42). -/
def Obligations.ClockRuns : Prop :=
  (∀ (s u : State) (tag : Byte) (body : List Byte) (r : ClockReq), Asked s 0x07 tag body u →
    readAll readClock body = some r →
    let set (t : State) : State := { t with clock := ⟨r.day, r.minute, r.second, true⟩, phase := 0 }
    let ok (t : State) : Prop := Answers (.setClock tag body) s 0x07 tag t .ok []
    let refused : Prop := Answers (.setClock tag body) s 0x07 tag u .range []
    (1439 < r.minute ∨ 59 < r.second → refused) ∧
    (r.minute ≤ 1439 → r.second ≤ 59 →
      (u.clock.valid = false → ok (set u).expiryTest) ∧
      (u.clock.valid = true →
        (r.day < u.clock.day ∨ u.clock.day + 1 < r.day → refused) ∧
        (r.day = u.clock.day → u.clock.minute < r.minute → ok (set u).expiryTest) ∧
        (r.day = u.clock.day → r.minute ≤ u.clock.minute → ok (set u)) ∧
        (r.day = u.clock.day + 1 → ok (set (u.rollover r.day)).expiryTest)))) ∧
  ∀ s : State, s.power = true →
    let c := s.clock
    (c.valid = false → exec .gateClockSecond s = .next s) ∧
    (c.valid = true → c.second < 59 →
      exec .gateClockSecond s = .next { s with clock := { c with second := c.second + 1 } }) ∧
    (c.valid = true → c.second = 59 → c.minute < 1439 →
      exec .gateClockSecond s = .next (State.expiryTest { s with clock := { c with second := 0, minute := c.minute + 1 } })) ∧
    (c.valid = true → c.second = 59 → c.minute = 1439 → c.day < 65535 →
      exec .gateClockSecond s =
        .next (State.rollover { s with clock := { c with second := 0, minute := 0, day := c.day + 1 } } (c.day + 1))) ∧
    (c.valid = true → c.second = 59 → c.minute = 1439 → c.day = 65535 →
      exec .gateClockSecond s = .next (State.rollover { s with clock := { c with second := 0, minute := 0 } } 65535))

/-- The expiry test (R17): each window of today whose expiry minute is reached and that has not expired does so, its OPEN
bookings entering NO_SHOW and joining the finalisation order list window by window, with one WINDOW_EXPIRED notice each. Day
rollover (R18): the windows of today not yet expired expire with their notices; the bookings of today that are not IN_LANE leave
the table and the list, those that are go with their units into the first window of the new day; tomorrow becomes today, new
windows are made, and ROLLOVER tells the day and the counts, in the sizes of log 21. -/
def Obligations.WindowsExpire : Prop :=
  (∀ s : State, s.book.windows.length = 96 →
    let gone (w : Nat) : List Booking := s.book.table.filter fun k => k.state == .opened && k.window == w
    let falls (w : Nat) : Bool := w < 48 && !(s.book.window w).expired
      && 30 * w + 30 + s.store.work.lateGrace ≤ s.clock.minute
    let due : List Nat := (List.range 48).filter falls
    ∃ c : BookUnit,
      c.table = s.book.table.map (fun k => if k.state = .opened ∧ falls k.window then { k with state := .noShow } else k) ∧
      c.final = s.book.final ++ due.flatMap (fun w => sortNats ((gone w).map (·.number))) ∧
      c.windows.length = 96 ∧
      (∀ w, c.window w =
        if falls w then
          Window.evalOver { s.book.window w with
            booked := (s.book.window w).booked - ((gone w).map (·.units)).sum, expired := true }
        else s.book.window w) ∧
      s.expiryTest = due.foldl (fun (t : State) w => t.queueNotice ⟨.windowExpired, u8 w ++ u16 (gone w).length⟩)
        { s with book := c }) ∧
  ∀ (s : State) (day : Nat), s.book.windows.length = 96 →
    let today (k : Booking) : Bool := k.window < 48
    let purged := s.book.table.filter fun k => today k && k.state != .inLane
    let carried := s.book.table.filter fun k => today k && k.state == .inLane
    let first := s.book.window 48
    let late := (List.range 48).filter fun w => !(s.book.window w).expired
    ∃ c : BookUnit,
      c.table = (s.book.table.filter fun k => !(today k && k.state != .inLane)).map
        (fun k => { k with window := k.window - 48 }) ∧
      c.final = s.book.final.filter (fun n => !(purged.any fun k => k.number == n)) ∧
      c.windows.length = 96 ∧
      c.window 0 = Window.evalOver { first with booked := first.booked + (carried.map (·.units)).sum } ∧
      (∀ w, 0 < w → w < 48 → c.window w = s.book.window (w + 48)) ∧
      (∀ w, 48 ≤ w → w < 96 → c.window w = ⟨s.store.work.defaultCapacity, 0, 0, false, false⟩) ∧
      s.rollover day =
        (late.foldl (fun (t : State) w => t.queueNotice ⟨.windowExpired, u8 w ++
            u16 (s.book.table.filter fun k => k.state == .opened && k.window == w).length⟩)
          { s with book := c }).queueNotice ⟨.rollover, u16 day ++ u16 purged.length ++ u8 carried.length⟩

/-- A claim (R20 to R23): its refusals, its class by the minute against the start of the booking's window, and the window the
booking stands in after it with the units that move. -/
def Obligations.ClaimsAreClassed : Prop :=
  ∀ (b : BookUnit) (t : ClaimTerms) (n : Nat) (l : LaneNo) (v : Nat), b.windows.length = 96 → t.minute < 1440 →
    (b.find n = none → b.claim t n l v = (b, .notFound)) ∧
    ∀ k, b.find n = some k → k.window < 96 →
      let s := 30 * k.window
      let c := t.minute / 30
      let late : Prop := s + 30 + t.grace ≤ t.minute
      let stays (cls : Timeliness) : Prop := b.claim t n l v =
        (⟨b.table.map fun x => if x.number = n then { x with state := .inLane, claim := some (l, v) } else x,
          b.final, b.windows⟩, .claimed cls k.window k.moved)
      let moves (cls : Timeliness) : Prop := ∃ d : BookUnit, b.claim t n l v = (d, .claimed cls c true) ∧
        d.table = b.table.map (fun x => if x.number = n then
          { x with state := .inLane, claim := some (l, v), window := c, moved := true } else x) ∧
        d.final = (if k.state = .noShow then b.final.filter (· ≠ n) else b.final) ∧
        ∀ w, (d.window w).booked =
            (b.window w).booked - (if k.state = .opened ∧ w = k.window then k.units else 0) + (if w = c then k.units else 0) ∧
          (d.window w).admitted = (b.window w).admitted ∧ (d.window w).capacity = (b.window w).capacity ∧
          (d.window w).expired = (b.window w).expired
      (∀ hl hv, k.state = .inLane → k.claim = some (hl, hv) → b.claim t n l v = (b, .inUse hl hv)) ∧
      (k.state = .cancelled ∨ k.state = .admitted → b.claim t n l v = (b, .final)) ∧
      (k.state = .opened → t.minute + t.early < s → t.pull = true → (b.window c).takes k.units = true → moves .onTime) ∧
      (k.state = .opened → t.minute + t.early < s → (t.pull = false ∨ (b.window c).takes k.units = false) →
        stays .early) ∧
      (k.state = .opened → s ≤ t.minute + t.early → t.minute < s + 30 → stays .onTime) ∧
      (k.state = .opened → s + 30 ≤ t.minute → t.minute < s + 30 + t.grace → stays .grace) ∧
      (k.state = .opened ∧ late ∨ k.state = .noShow →
        ((b.window c).takes k.units = true → moves .late) ∧
        ((b.window c).takes k.units = false → b.claim t n l v = (b, .lateFull c)))

/-- A release (R24) of a claimed booking: an ADMIT or INSPECT exit makes it ADMITTED with its minute, its units going from
booked to admitted; any other end returns it to OPEN, or to NO_SHOW once its window has expired. -/
def Obligations.ReleasesSettleBookings : Prop :=
  ∀ (b : BookUnit) (minute n : Nat) (k : Booking), b.find n = some k → k.window < 96 → b.windows.length = 96 →
    let w := b.window k.window
    let becomes (c : BookUnit) (f : Booking → Booking) : Prop :=
      c.table = b.table.map (fun x => if x.number = n then { f x with claim := none } else x) ∧
        ∀ v, v ≠ k.window → c.window v = b.window v
    becomes (b.release minute n .exit) (fun x => { x with state := .admitted, admittedMinute := some minute }) ∧
    (b.release minute n .exit).final = b.final ++ [n] ∧
    (b.release minute n .exit).window k.window =
      Window.evalOver { w with booked := w.booked - k.units, admitted := w.admitted + k.units } ∧
    (w.expired = true →
      becomes (b.release minute n .turned) (fun x => { x with state := .noShow }) ∧
      (b.release minute n .turned).final = b.final ++ [n] ∧
      (b.release minute n .turned).window k.window = Window.evalOver { w with booked := w.booked - k.units }) ∧
    (w.expired = false →
      becomes (b.release minute n .turned) (fun x => { x with state := .opened }) ∧
      (b.release minute n .turned).final = b.final ∧
      (b.release minute n .turned).window k.window = Window.evalOver w)

/-! ### Lanes and visits (spec/02) -/

/-- OPEN_LANE (R47): its refusals; a close-pending flag cleared on a lane in service; a CLOSED lane enters IDLE with its stuck
watches running for occupied loops, gives the lower command to a barrier that is not DOWN (R60), and at once opens a visit if a
loop of the entry is occupied (R27). -/
def Obligations.OpenLaneOpens : Prop :=
  ∀ (s u : State) (tag : Byte) (body : List Byte) (n : Nat), Asked s 0x09 tag body u →
    readAll readU8 body = some n →
    (laneOf n = none → Answers (.openLane tag body) s 0x09 tag u .range []) ∧ ∀ l, laneOf n = some l →
    let x := u.lane l
    let refused : Prop := u.gate ≠ .opened ∨ u.clock.valid = false ∨ x.state ≠ .closed ∧ x.closePending = false
    let answered (t : State) (st : Status) : Prop := Answers (.openLane tag body) s 0x09 tag t st []
    let watch (i : Loop) (k : Input) : StuckWatch :=
      if u.input l k then { x.stuck.get i with left := some u.store.work.loopStuck } else x.stuck.get i
    let stuck : PerLoop StuckWatch := ⟨watch .arrival .arrival, watch .stop .stop, watch .exit .exit⟩
    (refused → answered u .wrongState) ∧
    (¬refused → x.state ≠ .closed → answered (u.setLane l { x with closePending := false }) .ok) ∧
    (¬refused → x.state = .closed → x.visit = none → ∃ t, answered t .ok ∧
      (t.lane l).lamp = .red ∧ (t.lane l).closePending = false ∧ (t.lane l).stuck = stuck ∧
      (t.lane l).lines = x.lines ∧ (t.lane l).sign = x.sign ∧ t.book = u.book ∧ t.pool = u.pool ∧
      (if u.input l .arrival || u.input l .stop then
        (t.lane l).state = .arriving ∧ (t.lane l).visit = some { Visit.opening u.nextVisit with
            idSettle := if u.input l .stop then some u.store.work.idSettle else none } ∧
          (t.lane l).counters = { x.counters with visits := min 65535 (x.counters.visits + 1) }
      else (t.lane l).state = .idle ∧ (t.lane l).visit = none ∧ (t.lane l).counters = x.counters ∧
        t.nextVisit = u.nextVisit) ∧
      (t.lane l).barrier = x.barrier.lowered (u.input l .exit) (u.input l .downSense) u.store.work.lowerTime ∧
      (x.barrier.faultMark = false → t.exc = u.exc) ∧
      (x.barrier.state = .down → u.input l .arrival = false → u.input l .stop = false →
        t = (u.queueNotice ⟨.laneState, [BitVec.ofNat 8 n, 0, 1, 0, 0, 0, 0]⟩).setLane l
          { x with state := .idle, lamp := .red, closePending := false, stuck := stuck }))

/-- CLOSE_LANE (R48): an IDLE lane enters CLOSED, its stuck watches stop, its OPEN entries are discarded (R161) and a draining gate
with no other lane in service is SHUT (R179), while the barrier is left alone but for finding its position if an OPEN
BARRIER_FAULT was among them (R65); a CLOSED lane does not change; in any other state the flag is set. -/
def Obligations.CloseLaneCloses : Prop :=
  ∀ (s u : State) (tag : Byte) (body : List Byte) (n : Nat), Asked s 0x0A tag body u →
    readAll readU8 body = some n →
    (laneOf n = none → Answers (.closeLane tag body) s 0x0A tag u .range []) ∧ ∀ l, laneOf n = some l →
    let x := u.lane l
    let answered (t : State) : Prop := Answers (.closeLane tag body) s 0x0A tag t .ok []
    (x.state = .closed → answered u) ∧
    (x.state ≠ .closed → x.state ≠ .idle → answered (u.setLane l { x with closePending := true })) ∧
    (x.state = .idle → ∃ t, answered t ∧
      (t.lane l).state = .closed ∧ (t.lane l).closePending = false ∧
      (t.lane l).stuck = ⟨⟨none, false⟩, ⟨none, false⟩, ⟨none, false⟩⟩ ∧
      (t.lane l).barrier =
        (if u.exc.entries.any fun e => e.lane == some l && e.state == .opened && e.kind == .barrierFault then
          x.barrier.found (u.input l .upSense) (u.input l .downSense) (x.visit.any fun v => v.verdict.isSome)
            u.store.work.raiseTime u.store.work.lowerTime
        else x.barrier) ∧
      (t.lane l).lines = x.lines ∧ (t.lane l).visit = x.visit ∧ (t.lane l).sign = x.sign ∧ t.book = u.book ∧
      t.exc.entries = u.exc.entries.map (fun e => if e.lane = some l ∧ e.state = .opened then
        { e with state := .resolved, outcome := some .discarded, left := none } else e) ∧
      t.gate = (if u.gate = .draining ∧ allLanes.all (fun m => m == l || (u.lane m).state == .closed) then .shut else u.gate))

/-- RESET_LANE (R49): refused in CLOSED; else the booking is released, the bay or the waiting entry that the visit holds goes,
none of an earlier visit, and a bay that is freed serves the list (R150; holds of one number are told apart by their joining:
log 38), the sign is cleared, the lower command is given (R60), its entries and those without a visit are discarded, an OPEN
BARRIER_FAULT among them letting the barrier find its position (R65), the unrecorded-hold flag is cleared, and the lane is
IDLE, or CLOSED with the flag set, which discards every OPEN entry of the lane (R161), or in a fresh visit with a loop
occupied. -/
def Obligations.ResetLaneEndsTheVisit : Prop :=
  ∀ (s u : State) (tag : Byte) (body : List Byte) (n : Nat), Asked s 0x0B tag body u →
    readAll readU8 body = some n → Bounds u →
    (laneOf n = none → Answers (.resetLane tag body) s 0x0B tag u .range []) ∧ ∀ l, laneOf n = some l →
    let x := u.lane l
    let lowered := x.barrier.lowered (u.input l .exit) (u.input l .downSense) u.store.work.lowerTime
    let answered (t : State) (st : Status) : Prop := Answers (.resetLane tag body) s 0x0B tag t st []
    (x.state = .closed → answered u .wrongState) ∧
    (x.state ≠ .closed → ∃ t, answered t .ok ∧
      t.book = (match x.visit.bind Visit.claimed with
        | some k => u.book.release u.clock.minute k .turned
        | none => u.book) ∧
      (x.visit = none → t.pool = u.pool) ∧
      (∀ v, x.visit = some v →
        let mine (h : BayHold) : Prop := h.visit = v.number ∧ h.lane = l ∧ v.hold = some h.join
        ((∀ h, some h ∈ u.pool.bays ∨ h ∈ u.pool.waiting → ¬mine h) → t.pool = u.pool) ∧
        (∀ pre h post, u.pool.bays = pre ++ some h :: post → mine h → (∀ k, some k ∈ pre → ¬mine k) →
          (u.pool.waiting = [] → t.pool = ⟨pre ++ none :: post, []⟩) ∧
          (∀ k rest, u.pool.waiting = k :: rest → (∀ b ∈ pre ++ post, b ≠ none) →
            t.pool = ⟨pre ++ some { k with minute := u.clock.minute } :: post, rest⟩)) ∧
        (∀ pre h post, u.pool.waiting = pre ++ h :: post → mine h → (∀ k ∈ pre, ¬mine k) →
          (∀ b ∈ u.pool.bays, ∃ k, b = some k ∧ ¬mine k) → t.pool = ⟨u.pool.bays, pre ++ post⟩)) ∧
      (t.lane l).barrier =
        (let found (b : Barrier) (formed : Bool) : Barrier :=
          b.found (u.input l .upSense) (u.input l .downSense) formed u.store.work.raiseTime u.store.work.lowerTime
        let fault (present : Bool) : Bool := u.exc.entries.any fun e => e.lane == some l && e.state == .opened &&
          e.kind == .barrierFault && (e.visit == none || e.visit == x.visit.map Visit.number) == present
        let b := if fault true then found lowered (x.visit.any fun v => v.verdict.isSome) else lowered
        if x.closePending && fault false then found b false else b) ∧
      (t.lane l).sign = ⟨[], 0, none, false, x.sign.rx, x.sign.out ++ [encodeFrame 0 3 []]⟩ ∧
      t.exc.unrecorded.get l = false ∧ (t.lane l).interrupted = none ∧ (t.lane l).lamp = .red ∧
      (t.lane l).lines = x.lines ∧
      (x.closePending = true → (t.lane l).state = .closed ∧ (t.lane l).visit = none) ∧
      (∀ e ∈ t.exc.entries, e.lane = some l → e.visit = none ∨ e.visit = x.visit.map Visit.number → e.state = .resolved) ∧
      (x.closePending = true → ∀ e ∈ t.exc.entries, e.lane = some l → e.state ≠ .opened) ∧
      t.exc.entries.filter (fun e => e.lane ≠ some l) = u.exc.entries.filter (fun e => e.lane ≠ some l) ∧
      (x.closePending = false →
        if u.input l .arrival || u.input l .stop then
          (t.lane l).state = .arriving ∧ (t.lane l).visit = some { Visit.opening u.nextVisit with
            idSettle := if u.input l .stop then some u.store.work.idSettle else none }
        else (t.lane l).state = .idle ∧ (t.lane l).visit = none))

/-- GET_LANE (R50) gives every field of the lane as it stands: its record, its lines, barrier and watches (R66), and of its
visit what it has read (R85, R86, R114), its search, verdict and bay, its running timers, its checks (R116) and marks; then it
clears the changed mark of every check of the visit, and nothing else. A line's value and the drive are numbered in the
manual's order, active 0 and on 0 (R168). The order of the fields of one rule is log 21's, the places of the fields that R66,
R85, R86, R114 and R116 add log 44's, the order of a check's waivers log 45's, the bytes of marks log 28's, the surviving
defects of a part never evaluated log 39's; a report above 500 bytes is sent whole (log 10). -/
def Obligations.GetLaneReportsAndClears : Prop :=
  ∀ (s u : State) (tag : Byte) (body : List Byte) (n : Nat), Asked s 0x0C tag body u →
    readAll readU8 body = some n →
    (laneOf n = none → Answers (.getLane tag body) s 0x0C tag u .range []) ∧ ∀ l, laneOf n = some l →
    let x := u.lane l
    let mark (b : Bool) : List Byte := if b then [1] else [0]
    let first (b : Bool) : List Byte := if b then [0] else [1]
    let opt {α : Type} (f : α → List Byte) (o : Option α) : List Byte := match o with | none => [0] | some a => 1 :: f a
    let many {α : Type} (f : α → List Byte) (as : List α) : List Byte := u8 as.length ++ as.flatMap f
    let text (t : Text) : List Byte := u8 t.length ++ t
    let inputs : List Input := [.arrival, .stop, .exit, .upSense, .downSense, .call]
    let loops : List Loop := [.arrival, .stop, .exit]
    let raw (i : Input) : Bool := (x.lines.get i).raw != (u.store.work.activeLow.get l).get i
    let value (i : Input) : Bool := (x.lines.get i).force.getD (x.lines.get i).settled
    let forced (o : Option Bool) : List Byte := match o with | none => [0] | some b => if b then [1] else [2]
    let watch (w : Watch) : List Byte := u8 w.action.ctorIdx ++ u8 w.reason
    let seen (z : SeenSeal) : List Byte := text z.text ++ u8 z.source.ctorIdx
    let defects (v : Survey) : List Byte :=
      many (fun d => u8 d.panel.ctorIdx ++ u8 d.type.ctorIdx ++ u8 d.depth ++ u16 d.area) v.defects
    let seals (p : SealPart) : List Byte :=
      many seen p.seen ++ opt (fun m => u8 m.1 ++ u8 m.2.ctorIdx) p.move ++ u8 p.outcome.ctorIdx ++ u8 p.phase.ctorIdx ++
        mark p.mismatchMark ++ mark p.unexpectedMark ++ mark p.missingMark
    let damage (p : DamagePart) : List Byte :=
      opt defects p.held ++ opt defects p.graded ++
        [p.sums.left, p.sums.right, p.sums.frontEnd, p.sums.doorEnd, p.sums.roof, p.index, p.excess].flatMap u16 ++
        mark p.breach ++ u16 p.knownUsed ++ u8 p.outcome.ctorIdx ++ u8 p.phase.ctorIdx ++ mark p.notedMark ++
        mark p.severeMark ++ mark p.missingMark ++ u8 p.survived
    let position (r : PosRec) : List Byte :=
      if r.made then
        1 :: (opt text r.cid ++ mark r.spanning ++ u8 r.misreads ++ mark r.unreadable ++ mark r.conflict ++ mark r.mismatch ++
          opt watch r.watch ++ seals r.sealPart ++ damage r.damage)
      else [0]
    let waiver (w : Waiver) : List Byte := match w with | .kind k => u8 k.ctorIdx | .identity i => u8 i.ctorIdx
    let check (c : CheckName) (k : Check) : List Byte :=
      let stands : Outcome := match k.override with
        | none => k.outcome
        | some b => if b then .pass else if c = .damageFront ∨ c = .damageRear then .severe else .fail
      u8 k.outcome.ctorIdx ++ forced k.override ++ mark k.changed ++ u8 k.ignored ++ many waiver k.waivers ++
        u8 stands.ctorIdx
    let names : List CheckName :=
      [.booking, .timeliness, .release, .watch, .idFront, .idRear, .sealFront, .sealRear, .damageFront, .damageRear]
    let visit (v : Visit) : List Byte :=
      u16 v.number ++ opt text v.plate ++ opt watch v.plateWatch ++ position v.front ++ position v.rear ++
        many seen v.unplaced ++ opt u32 v.keyed ++
        u8 v.matchState.ctorIdx ++ opt u32 v.claimed ++ opt (fun c => u8 c.ctorIdx) v.timeliness ++
        opt u32 v.refused ++ opt (fun d => u8 d.ctorIdx) v.verdict ++ u8 v.bayStep.ctorIdx ++ opt u8 v.bay ++
        mark v.waiting ++ mark v.raiseCommanded ++ mark v.passage ++ mark v.lowerHeld ++
        [v.idSettle, v.lookup, v.abandon, v.sealWait, v.surveyWait].flatMap (opt u16) ++
        names.flatMap (fun c => check c (v.checks.get c)) ++ mark v.turnAwayMark ++ mark v.releaseMark
    let report : List Byte :=
      u8 x.state.ctorIdx ++ opt (fun st => u8 st.ctorIdx) x.interrupted ++ mark x.closePending ++
        mark (u.exc.unrecorded.get l) ++ u8 x.barrier.state.ctorIdx ++ inputs.flatMap (fun i => first (value i)) ++
        inputs.flatMap (fun i => first (raw i) ++ first (x.lines.get i).settled ++ forced (x.lines.get i).force ++
          mark (x.lines.get i).pending.isSome) ++
        opt (fun m => u8 m.ctorIdx) x.barrier.pending ++ mark x.barrier.faultMark ++ mark x.barrier.exitHold ++
        opt u16 x.barrier.left ++ first (x.barrier.state == .raising || x.barrier.state == .up) ++ u8 x.lamp.ctorIdx ++
        loops.flatMap (fun k => mark (x.stuck.get k).left.isSome ++ mark (x.stuck.get k).reported) ++
        opt visit x.visit
    let answered (t : State) : Prop := Answers (.getLane tag body) s 0x0C tag t .ok report
    (u.visit l = none → answered u) ∧
    ∀ v, u.visit l = some v → ∃ c : Checks, (∀ k, c.get k = { v.checks.get k with changed := false }) ∧
      answered (u.setLane l { u.lane l with visit := some { v with checks := c } })

/-- KEYED_BOOKING and LOOKUP_ANSWER (R37, R33) and the two timers of the search (R29, R34): what is refused, what is recorded, and
which act of the search follows; a timer that does not run changes nothing. -/
def Obligations.TheSearchIsCommanded : Prop :=
  (∀ (s u : State) (tag : Byte) (body : List Byte),
    (∀ n k, Asked s 0x0D tag body u → readAll (readPair readU8 readU32) body = some (n, k) → laneOf n = none →
      Answers (.keyedBooking tag body) s 0x0D tag u .range []) ∧
    ∀ r : AnswerReq, Asked s 0x0E tag body u → readAll readAnswer body = some r → laneOf r.lane = none →
      Answers (.lookupAnswer tag body) s 0x0E tag u .range []) ∧
  ∀ (s u : State) (tag : Byte) (body : List Byte) (l : LaneNo),
    (∀ n k, Asked s 0x0D tag body u → readAll (readPair readU8 readU32) body = some (n, k) → laneOf n = some l →
      let answered (t : State) (st : Status) : Prop := Answers (.keyedBooking tag body) s 0x0D tag t st []
      (k = 0 ∨ 99999999 < k → answered u .range) ∧
      (1 ≤ k → k ≤ 99999999 →
        ((u.lane l).state = .closed ∨ (u.lane l).state = .idle ∨ (u.lane l).state = .checking ∨
          (u.lane l).state = .decided ∨ (u.lane l).state = .exiting ∨ u.visit l = none → answered u .wrongState) ∧
        ∀ v, u.visit l = some v →
          ((u.lane l).state = .trouble → v.matchState = .claimed → answered u .wrongState) ∧
          ((u.lane l).state = .trouble → v.matchState = .notTried ∨ v.matchState = .waiting ∨ v.matchState = .failed →
            answered (u.modVisit l fun v => { v with
              keyed := some k, matchState := if v.matchState = .failed then .waiting else v.matchState }) .ok) ∧
          ((u.lane l).state = .arriving ∨ (u.lane l).state = .awaitingHost →
            answered ((u.modVisit l fun v => { v with keyed := some k }).tryMatch l) .ok))) ∧
    (∀ r : AnswerReq, Asked s 0x0E tag body u → readAll readAnswer body = some r → laneOf r.lane = some l →
      let answered (t : State) (st : Status) : Prop := Answers (.lookupAnswer tag body) s 0x0E tag t st []
      let waited : Prop := ∃ v, u.visit l = some v ∧ v.number = r.visit ∧ v.matchState = .looking
      (r.number = some 0 ∨ (∃ k, r.number = some k ∧ 99999999 < k) → answered u .range) ∧
      ((∀ k, r.number = some k → 1 ≤ k ∧ k ≤ 99999999) →
        (¬waited → answered u .tooLate) ∧
        (waited → r.number = none → answered (u.noBooking l 1) .ok) ∧
        (waited → ∀ k, r.number = some k → answered ((u.endLookup l).claimBooking l k) .ok))) ∧
    (s.power = true → ∀ v, s.visit l = some v →
      exec (.idSettleExpiry l) s = .next (if v.idSettle.isSome then s.tryMatch l else s) ∧
      exec (.lookupTimeout l) s = .next (if v.lookup.isSome then s.noBooking l 2 else s))

/-- The results of a match (R30): with no candidate a LOOKUP is sent, in AWAITING_HOST (R32); an OPEN or NO_SHOW candidate is
claimed; a booking that is IN_LANE, found or named, raises BOOKING_IN_USE, and a claim refused with LATE_FULL raises
WINDOW_LATE_FULL and is noted as refused, each with match state FAILED and its check at that outcome, unless it is waived or
overridden. Under HOLD the lane is then in TROUBLE, under NOTE and SILENT the verdict is attempted at once (R31). -/
def Obligations.MatchesEndInResults : Prop :=
  ∀ (s : State) (l : LaneNo) (v : Visit), s.visit l = some v →
    let x := s.lane l
    let stores : Prop := s.exc.entries.length < 32 ∧ s.exc.next ≤ 65535
    let fresh (c : CheckName) (k : ExcKind) : Prop := (v.checks.get c).override = none ∧ (v.checks.get c).waives k = false
    let fails (t : State) (k : ExcKind) (c : CheckName) (o : Outcome) (detail : Nat) (refused : Option Nat) : Prop :=
      let entry (r : Response) (st : EntryState) : Entry :=
        ⟨s.exc.next, k, some l, some v.number, none, detail, s.clock.minute, r, 0, st, none, none, false⟩
      let shown (u : State) : Prop := u.book = s.book ∧
        (u.visit l).map (fun w => (w.number, w.matchState, (w.checks.get c).outcome, w.refused, w.lookup)) =
          some (v.number, .failed, o, refused, none)
      (s.store.work.response k = .hold → shown t ∧ (t.lane l).state = .trouble ∧ (t.lane l).interrupted = some x.state ∧
        (t.lane l).lamp = .red ∧ t.exc.entries.getLast? = some (entry .hold .opened)) ∧
      (s.store.work.response k = .note → ∃ u : State, t = u.attempt l ∧ shown u ∧ (u.lane l).state = x.state ∧
        u.exc.entries = s.exc.entries ++ [entry .note .logged]) ∧
      (s.store.work.response k = .silent → ∃ u : State, t = u.attempt l ∧ shown u ∧ (u.lane l).state = x.state ∧
        u.exc = s.exc)
    x.state = .arriving ∨ x.state = .awaitingHost →
    (candidate s.book s.clock.minute v = none →
      let n1 := s.queueNotice ⟨.lookup, laneField l ++ u16 v.number ++ optField textField v.plate
        ++ optField textField v.front.cid ++ optField textField v.rear.cid ++ optField u32 v.keyed
        ++ optField u32 v.refused⟩
      let n2 := if x.state = .arriving then
        n1.queueNotice ⟨.laneState, laneField l ++ [2, 3] ++ u16 v.number ++ [0, 3]⟩ else n1
      s.tryMatch l = n2.setLane l { x with
        state := .awaitingHost
        visit := some { v with
          matchState := .looking, lookup := some s.store.work.lookup, idSettle := none
          abandon := if s.input l .arrival || s.input l .stop then v.abandon
            else some (v.abandon.getD s.store.work.abandon) } }) ∧
    (∀ k, candidate s.book s.clock.minute v = some k → k.state = .opened ∨ k.state = .noShow →
      s.tryMatch l = State.claimBooking (s.setLane l { x with visit := some { v with
        lookup := none, idSettle := none
        matchState := if v.matchState = .looking then .waiting else v.matchState } }) l k.number) ∧
    (v.verdict = none → stores →
      (fresh .booking .bookingInUse →
        (∀ k h m, candidate s.book s.clock.minute v = some k → k.state = .inLane → k.claim = some (h, m) →
          fails (s.tryMatch l) .bookingInUse .booking .bookingInUse (laneNumber h) v.refused) ∧
        ∀ n h m, (s.book.claim s.claimTerms n l v.number).2 = .inUse h m →
          fails (s.claimBooking l n) .bookingInUse .booking .bookingInUse (laneNumber h) v.refused) ∧
      (fresh .timeliness .windowLateFull → ∀ n w, (s.book.claim s.claimTerms n l v.number).2 = .lateFull w →
        fails (s.claimBooking l n) .windowLateFull .timeliness .windowLateFull w (some n)))

/-- A claim that is made (R30, R38) puts the lane into CHECKING or on from there: the visit holds the booking's number and its class,
BOOKING and TIMELINESS take their outcomes (R117), the two waits run, the moves stand in their positions, recorded or expected
(R89), and the NO_BOOKING entry is cleared (R35). NO_BOOKING (R31, R35): the first raises its entry, under RETRY the search going
on; once one has stood under RETRY each further one is a failure of its step (R160), which escalates it at the retry limit; where
it no longer stands so, nothing happens (log 12). -/
def Obligations.ClaimsReachTheVisit : Prop :=
  ∀ (s : State) (l : LaneNo) (v : Visit), Bounds s → s.visit l = some v → v.verdict = none →
    let x := s.lane l
    let w := s.store.work
    let ours (e : Entry) : Bool := e.kind == .noBooking && e.lane == some l && e.visit == some v.number && e.pos == none &&
      e.state == .opened && e.response == .retry
    let entry := s.exc.entries.find? ours
    x.state = .arriving ∨ x.state = .awaitingHost →
    (∀ n c at_ moved k, (s.book.claim s.claimTerms n l v.number).2 = .claimed c at_ moved → s.book.find n = some k →
      let t := s.claimBooking l n
      t.book = (s.book.claim s.claimTerms n l v.number).1 ∧
      (∀ e, entry = some e → ∀ d ∈ t.exc.entries, d.number = e.number →
        d.state = .resolved ∧ d.outcome = some .cleared) ∧
      ((t.lane l).state = .checking ∨ (t.lane l).state = .decided ∨ (t.lane l).state = .exiting ∨
        (t.lane l).state = .trouble) ∧
      ∃ y, t.visit l = some y ∧ y.number = v.number ∧ y.matchState = .claimed ∧ y.claimed = some n ∧ y.timeliness = some c ∧
        y.lookup = none ∧ y.idSettle = none ∧ y.refused = v.refused ∧ y.unplaced = [] ∧
        ((t.lane l).state = .checking → y.sealWait = some w.sealWait ∧ y.surveyWait = some w.surveyWait) ∧
        (v.checks.booking.override = none → y.checks.booking.outcome = .pass) ∧
        (v.checks.timeliness.override = none → y.checks.timeliness.outcome =
          if c = .early ∧ v.checks.timeliness.waives .windowEarly = false then .windowEarly else .pass) ∧
        let brings := (k.moves.zipIdx.filter fun m => m.1.kind.bringIn).map fun m => (m.2 + 1, m.1)
        let f := y.front.cid
        let g := y.rear.cid
        let named (p : Text) : Option (Nat × Basis) := (brings.find? fun m => m.2.cid == some p).map fun m => (m.1, .recorded)
        let missing := (brings.filter fun m => !(f.isSome && m.2.cid == f) && !(g.isSome && m.2.cid == g)).map fun m =>
          (m.1, Basis.expected)
        y.front.sealPart.move = (match f with | some p => named p | none => missing.head?) ∧
        y.rear.sealPart.move = (match g with
          | some p => if y.rear.spanning then none else named p
          | none => if f = none then missing.tail.head? else missing.head?)) ∧
    (∀ n, (s.book.claim s.claimTerms n l v.number).2 = .notFound ∨ (s.book.claim s.claimTerms n l v.number).2 = .final →
      s.claimBooking l n = s.noBooking l 3) ∧
    ∀ d, v.checks.booking.override = none → v.checks.booking.waives .noBooking = false →
      let t := s.noBooking l d
      let resp := w.response .noBooking
      let limit := w.limit .noBooking
      let waits : MatchState := if v.matchState = .looking then .waiting else v.matchState
      let shown (u : State) (m : MatchState) (retried : Bool) : Prop := u.book = s.book ∧
        (u.visit l).map (fun y => (y.number, y.matchState, y.lookup, y.checks.booking.outcome, y.searchRetried)) =
          some (v.number, m, none, .noBooking, retried)
      let raised (r : Response) (st : EntryState) (left : Option Nat) : Entry :=
        ⟨s.exc.next, .noBooking, some l, some v.number, none, d, s.clock.minute, r, 0, st, none, left, false⟩
      let held : Prop := (t.lane l).state = .trouble ∧ (t.lane l).interrupted = some x.state ∧ (t.lane l).lamp = .red
      (v.searchRetried = false → s.exc.entries.length < 32 → s.exc.next ≤ 65535 →
        (resp = .retry → limit ≠ 0 → shown t waits true ∧ (t.lane l).state = x.state ∧
          t.exc.entries = s.exc.entries ++ [raised .retry .opened (some w.retryInterval)]) ∧
        (resp = .hold ∨ resp = .retry ∧ limit = 0 → shown t .failed false ∧ held ∧
          t.exc.entries.getLast? = some (raised .hold .opened none)) ∧
        (resp = .note → ∃ u : State, t = u.attempt l ∧ shown u .failed false ∧ (u.lane l).state = x.state ∧
          u.exc.entries = s.exc.entries ++ [raised .note .logged none])) ∧
      (v.searchRetried = true →
        (entry = none → shown t waits true ∧ (t.lane l).state = x.state ∧ t.exc = s.exc) ∧
        ∀ e, entry = some e →
          let count := min 7 (e.retries + 1)
          (count < limit → shown t waits true ∧ (t.lane l).state = x.state ∧
            t.exc.entries = s.exc.entries.map fun z =>
              if z.number = e.number then { z with retries := count, left := some w.retryInterval } else z) ∧
          (limit ≤ count → shown t .failed true ∧ held ∧
            { e with retries := count, response := .hold, left := none } ∈ t.exc.entries))

/-- The search takes the keyed number first, then the ID of FRONT, that of REAR, then the plate (R78); among several candidates the
one whose window start is nearest, the lower number at equal distance. -/
def Obligations.CandidatesInOrder : Prop :=
  (∀ (minute : Nat) (ks : List Booking), (nearest minute ks = none ↔ ks = []) ∧
    ∀ k, nearest minute ks = some k → k ∈ ks ∧ ∀ j ∈ ks,
      let d (x : Booking) : Int := |30 * (x.window : Int) - (minute : Int)|
      d k < d j ∨ d k = d j ∧ k.number ≤ j.number) ∧
  ∀ (b : BookUnit) (minute : Nat) (v : Visit),
    let keyed := v.keyed.bind fun n =>
      (b.find n).filter fun k => k.state == .opened || k.state == .noShow || k.state == .inLane
    let byCid (t : Text) : Option Booking :=
      let all := b.table.filter fun k => k.moves.any fun m => m.kind.bringIn && m.cid == some t
      let live := all.filter fun k => k.state == .opened || k.state == .inLane
      if live = [] then nearest minute (all.filter fun k => k.state == .noShow) else nearest minute live
    let byPlate (t : Text) : Option Booking :=
      nearest minute (b.table.filter fun k => k.plate == some t && (k.state == .opened || k.state == .noShow))
    candidate b minute v =
      (match keyed with
      | some k => some k
      | none => match v.front.cid.bind byCid with
        | some k => some k
        | none => match v.rear.cid.bind byCid with
          | some k => some k
          | none => v.plate.bind byPlate)

/-- The abandon timer's expiry (R39): the booking is released, the visit's OPEN entries are discarded, the counter rises, and the
lane is IDLE, or CLOSED with the flag set, or in a fresh visit with a loop occupied. -/
def Obligations.VisitsAreAbandoned : Prop :=
  ∀ (s : State) (l : LaneNo) (v : Visit), s.power = true → s.visit l = some v →
    let x := s.lane l
    (v.abandon = none → exec (.abandonExpiry l) s = .next s) ∧
    (v.abandon.isSome = true → ∃ t, exec (.abandonExpiry l) s = .next t ∧
      t.book = (match v.claimed with
        | some k => s.book.release s.clock.minute k .turned
        | none => s.book) ∧
      (t.lane l).counters.abandoned = min 65535 (x.counters.abandoned + 1) ∧ (t.lane l).lines = x.lines ∧
      (t.lane l).sign = x.sign ∧ t.pool = s.pool ∧
      (x.closePending = true → (t.lane l).state = .closed ∧ (t.lane l).visit = none) ∧
      (x.closePending = false →
        t.exc.entries = s.exc.entries.map (fun e =>
          if e.lane = some l ∧ e.visit = some v.number ∧ e.state = .opened then
            { e with state := .resolved, outcome := some .discarded, left := none } else e) ∧
        (if s.input l .arrival || s.input l .stop then
          (t.lane l).state = .arriving ∧ (t.lane l).visit = some { Visit.opening s.nextVisit with
            idSettle := if s.input l .stop then some s.store.work.idSettle else none }
        else (t.lane l).state = .idle ∧ (t.lane l).visit = none)))

/-- No counter of the part goes above 65535 (R183): the counters of the lanes, of the link and of the Exception Table keep to
their two bytes at every step. -/
def Obligations.CountersSaturate : Prop :=
  let fits (s : State) : Prop :=
    (∀ l, (∀ f ∈ [LaneCounters.visits, LaneCounters.admitted, LaneCounters.inspect, LaneCounters.turnedAway,
        LaneCounters.abandoned, LaneCounters.misreads, LaneCounters.duplicates, LaneCounters.forcedRaw,
        LaneCounters.discarded, LaneCounters.reversals], f (s.lane l).counters ≤ 65535)) ∧
      s.link.badFrames ≤ 65535 ∧ s.link.overflows ≤ 65535 ∧ s.link.noticesLost ≤ 65535 ∧ s.exc.lost ≤ 65535
  fits State.reset ∧ ∀ s t : State, fits s → step s = .next t → fits t

/-! ### Lane lines and the barrier (spec/03) -/

/-- FORCE_LINE, UNFORCE_LINE (R54, R55), RAW_LEVEL_CHANGE and SETTLE_EXPIRY (R52): what each makes of the line record, and when
a conditioned change is handed to the users of the line. -/
def Obligations.LinesSettle : Prop :=
  (∀ (s u : State) (tag : Byte) (body : List Byte),
    (∀ n x b, Asked s 0x0F tag body u → readAll readForce body = some (n, x, b) →
      (laneOf n = none ∨ x = none → Answers (.forceLine tag body) s 0x0F tag u .range []) ∧
      ∀ l i, laneOf n = some l → x = some i →
        let u1 := u.modLine l i fun r => { r with force := some b }
        Answers (.forceLine tag body) s 0x0F tag (if u.input l i = b then u1 else u1.conditioned l i b) .ok []) ∧
    (∀ n x, Asked s 0x10 tag body u → readAll readUnforce body = some (n, x) →
      (laneOf n = none ∨ x = none → Answers (.unforceLine tag body) s 0x10 tag u .range []) ∧
      ∀ l i, laneOf n = some l → x = some i →
        let r := u.line l i
        let u1 := u.modLine l i fun r => { r with force := none }
        Answers (.unforceLine tag body) s 0x10 tag
          (if u.input l i = r.settled then u1 else u1.conditioned l i r.settled) .ok [])) ∧
  ∀ (s : State) (l : LaneNo) (i : Input), s.power = true →
    let r := s.line l i
    let as (x : LineRec) : State := s.modLine l i fun _ => x
    let counted (t : State) : State := t.modLane l fun x =>
      { x with counters := { x.counters with forcedRaw := min 65535 (x.counters.forcedRaw + 1) } }
    (exec (.rawLevelChange l i r.raw) s = .next s) ∧
    (∀ raw, raw ≠ r.raw →
      let on := raw != s.activeLow l i
      let steps := (s.store.work.settleSteps.get l).get i
      exec (.rawLevelChange l i raw) s = .next
        (if on = r.settled then as ⟨raw, r.settled, none, r.force⟩
        else if r.pending ≠ none then as ⟨raw, r.settled, r.pending, r.force⟩
        else if steps ≠ 0 then as ⟨raw, r.settled, some steps, r.force⟩
        else if r.force = none then (as ⟨raw, on, none, none⟩).conditioned l i on
        else counted (as ⟨raw, on, none, r.force⟩))) ∧
    (r.pending = none → exec (.settleExpiry l i) s = .next s) ∧
    (r.pending ≠ none → exec (.settleExpiry l i) s = .next
      (if r.force = none then (as ⟨r.raw, !r.settled, none, none⟩).conditioned l i (!r.settled)
      else counted (as ⟨r.raw, !r.settled, none, r.force⟩)))

/-- What the users of a line make of a conditioned change (R53): the call button (R56), the stuck watches (R57), the opening
of a visit (R27), the abandon timer (R39), the arrival at UP and at DOWN (R61, R42, R43), the safety reversal (R62), the
passage (R42). The model's choice: at the arrival at DOWN the delivered group that leaves the queue (R43) is told by the
visit's number, also where it is an earlier visit's (log 38). -/
def Obligations.ConditionedChanges : Prop :=
  ∀ (s : State) (l : LaneNo) (i : Input) (on : Bool), s.input l i = on →
    let x := s.lane l
    let t := s.conditioned l i on
    let y := t.lane l
    (i = .call → t = if on then
      s.queueNotice ⟨.call, [BitVec.ofNat 8 (l.ctorIdx + 1), BitVec.ofNat 8 x.state.ctorIdx] ++ u16 x.visitNumber⟩ else s) ∧
    (∀ k, loopOf i = some k → y.state ≠ .closed → x.state ≠ .closed → y.stuck.get k =
      if on then { x.stuck.get k with left := some s.store.work.loopStuck } else ⟨none, false⟩) ∧
    (x.state = .closed → y.visit = x.visit ∧ y.state = .closed ∧ (on = true → y.stuck = x.stuck)) ∧
    (on = true → i = .arrival ∨ i = .stop → x.state = .idle → x.closePending = false →
      y.state = .arriving ∧ y.visit = some { Visit.opening s.nextVisit with
        idSettle := if s.input l .stop then some s.store.work.idSettle else none } ∧
      y.counters = { x.counters with visits := min 65535 (x.counters.visits + 1) } ∧ y.barrier = x.barrier ∧
      t.exc = s.exc ∧ t.book = s.book) ∧
    (i = .arrival ∨ i = .stop → x.state = .arriving ∨ x.state = .awaitingHost ∨ x.state = .checking → ∀ v, x.visit = some v →
      y.state = x.state ∧
      (on = true → y.visit = some { v with
        abandon := none
        idSettle := if i = .stop ∧ x.state = .arriving ∧ v.matchState = .notTried then
          some (v.idSettle.getD s.store.work.idSettle) else v.idSettle }) ∧
      (on = false → y.visit = some { v with
        abandon := if s.input l .arrival || s.input l .stop then v.abandon
          else some (v.abandon.getD s.store.work.abandon) })) ∧
    (on = true → i = .upSense → x.barrier.state = .raising → x.barrier.faultMark = false → ∀ v, x.visit = some v →
      x.state ≠ .exiting ∨ v.lowerHeld = false →
      t.exc = s.exc ∧ y.barrier = { x.barrier with state := .up, pending := none, left := none } ∧ y.visit = x.visit ∧
      if x.state = .decided ∧ v.raiseCommanded = true then y.state = .exiting ∧ y.lamp = .green
      else y.state = x.state ∧ y.lamp = x.lamp) ∧
    (on = true → i = .exit → x.barrier.state = .lowering → x.barrier.faultMark = false → s.input l .upSense = false →
      y.barrier = { x.barrier with state := .raising, pending := none, left := some s.store.work.raiseTime } ∧
      y.counters = { x.counters with reversals := min 65535 (x.counters.reversals + 1) } ∧ y.state = x.state ∧
      ((x.state = .exiting ∨ x.state = .trouble ∧ x.interrupted = some .exiting) →
        y.visit = x.visit.map fun v => { v with passage := true })) ∧
    (on = false → i = .exit → x.state = .exiting → x.barrier = ⟨.up, none, false, false, none⟩ →
      s.input l .downSense = false → ∀ v, x.visit = some v →
      (v.passage = false → y.barrier = x.barrier ∧ y.visit = x.visit) ∧
      (v.passage = true → y.barrier = ⟨.lowering, none, false, false, some s.store.work.lowerTime⟩ ∧
        y.visit = some { v with passage := false } ∧ y.state = .exiting)) ∧
    (on = true → i = .downSense → x.state = .exiting → x.barrier.state = .lowering → x.barrier.faultMark = false →
      x.closePending = false → ∀ v d, x.visit = some v → v.verdict = some d →
      t.book = (match v.claimed with
        | some n => s.book.release s.clock.minute n (if d = .turnAway then .turned else .exit)
        | none => s.book) ∧
      y.lamp = .red ∧ y.barrier = { x.barrier with state := .down, pending := none, left := none } ∧
      t.exc.entries = s.exc.entries.map (fun e =>
        if e.lane = some l ∧ e.visit = some v.number ∧ e.state = .opened then
          { e with state := .resolved, outcome := some .discarded, left := none } else e) ∧
      y.sign.queue = x.sign.queue.filter (fun g => !(g.visit == v.number && g.recs.all fun r => r.sent)) ∧
      y.counters.admitted = (if d = .admitIn then min 65535 (x.counters.admitted + 1) else x.counters.admitted) ∧
      y.counters.inspect = (if d = .inspect then min 65535 (x.counters.inspect + 1) else x.counters.inspect) ∧
      y.counters.turnedAway = (if d = .turnAway then min 65535 (x.counters.turnedAway + 1) else x.counters.turnedAway) ∧
      (if s.input l .arrival || s.input l .stop then
        y.state = .arriving ∧ y.visit = some { Visit.opening s.nextVisit with
          idSettle := if s.input l .stop then some s.store.work.idSettle else none }
      else y.state = .idle ∧ y.visit = none))

/-- LOOP_STUCK_EXPIRY raises LOOP_FAULT and sets the reported mark (R57); RAISE_TIMER_EXPIRY and LOWER_TIMER_EXPIRY put the
barrier into FAULT with the failed motion pending, raise BARRIER_FAULT at a first failure in a lane that is not CLOSED, and
report a failure of the standing entry while its mark is set (R63; whoever commanded the motion: log 36). A timer that does not
run changes nothing. -/
def Obligations.TimersOfTheLines : Prop :=
  ∀ (s : State) (l : LaneNo), s.power = true →
    let x := s.lane l
    let visit := x.visit.map Visit.number
    (∀ k : Loop,
      ((x.stuck.get k).left = none → exec (.loopStuckExpiry l k) s = .next s) ∧
      ((x.stuck.get k).left ≠ none → exec (.loopStuckExpiry l k) s = .next
        ((s.raiseExc ⟨.loopFault, some l, visit, none, match k with | .arrival => 1 | .stop => 2 | .exit => 3, .inspect⟩).1.modLane
          l fun y => { y with stuck := y.stuck.set k ⟨none, true⟩ }))) ∧
    ∀ m : Motion,
      let i : Instr := match m with | .raise => .raiseTimerExpiry l | .lower => .lowerTimerExpiry l
      let runs : Prop := x.barrier.state = (match m with | .raise => .raising | .lower => .lowering) ∧ x.barrier.left ≠ none
      let failed (mark : Bool) : State := s.setLane l { x with barrier := ⟨.fault, some m, mark, false, none⟩ }
      (¬runs → exec i s = .next s) ∧
      (runs → x.barrier.faultMark = false → x.state = .closed → exec i s = .next (failed false)) ∧
      (runs → x.barrier.faultMark = false → x.state ≠ .closed →
        let r := (failed false).raiseExc
          ⟨.barrierFault, some l, visit, none, match m with | .raise => 1 | .lower => 2, .inspect⟩
        exec i s = .next (if r.2 = .openRetry ∨ r.2 = .openHold then
          r.1.modLane l fun y => { y with barrier := { y.barrier with faultMark := true } } else r.1)) ∧
      (runs → x.barrier.faultMark = true → exec i s = .next
        (match s.exc.entries.find? fun e => e.state == .opened && e.kind == .barrierFault && e.lane == some l with
        | some e => ((failed true).reportFailure e.number).1
        | none => failed true))

/-- The tables of the raise and of the lower command (R59, R60), the retry step's attempt (R64) and the finding of the
position (R65), for a barrier whose motion does not end at once; and the drive (R66). -/
def Obligations.BarrierCommands : Prop :=
  (∀ b : Barrier, b.drive = true ↔ b.state = .raising ∨ b.state = .up) ∧
  ∀ (s : State) (l : LaneNo),
    let b := (s.lane l).barrier
    let now (b : Barrier) : State := s.setLane l { s.lane l with barrier := b }
    let w := s.store.work
    let raising : State := now ⟨.raising, none, b.faultMark, b.exitHold, some w.raiseTime⟩
    let lowering : State := now ⟨.lowering, none, b.faultMark, false, some w.lowerTime⟩
    let up : State := now ⟨.up, none, false, b.exitHold, none⟩
    let down : State := now ⟨.down, none, false, b.exitHold, none⟩
    let lowered : State := now ⟨.down, none, false, false, none⟩
    let raises (r : State × Option Arrival) : Prop :=
      (s.input l .upSense = false → r = (raising, none)) ∧
      (s.input l .upSense = true → b.faultMark = false → r = (up, some .up))
    let lowers (r : State × Option Arrival) : Prop :=
      (s.input l .downSense = false → r = (lowering, none)) ∧
      (s.input l .downSense = true → b.faultMark = false → r = (lowered, some .down))
    (b.state = .down ∨ b.state = .lowering → raises (s.raiseArm l)) ∧
    (b.state = .raising ∨ b.state = .up → s.raiseArm l = (now { b with exitHold := false }, none)) ∧
    (b.state = .fault → b.faultMark = true → s.raiseArm l = (now { b with pending := some .raise }, none) ∧
      s.lowerArm l = (now { b with pending := some .lower }, none)) ∧
    (b.state = .fault → b.faultMark = false → raises (s.raiseArm l) ∧ lowers (s.lowerArm l)) ∧
    (b.state = .up ∨ b.state = .raising →
      (s.input l .exit = true → s.lowerArm l = (now { b with exitHold := true }, none)) ∧
      (s.input l .exit = false → lowers (s.lowerArm l))) ∧
    (b.state = .lowering ∨ b.state = .down → s.lowerArm l = (s, none)) ∧
    (b.state ≠ .fault → s.attemptMotion l = (s, none) ∧ s.findArm l = (s, none)) ∧
    (b.state = .fault →
      let formed : Prop := ∃ v, s.visit l = some v ∧ v.verdict ≠ none
      (b.pending = some .raise → formed → raises (s.attemptMotion l)) ∧
      (b.pending = some .lower ∨ ¬formed → lowers (s.attemptMotion l)) ∧
      (b.pending = some .raise → s.input l .upSense = true → s.input l .downSense = false → b.faultMark = false →
        s.findArm l = (up, some .up)) ∧
      (b.pending = some .lower → s.input l .downSense = true → s.input l .upSense = false → b.faultMark = false →
        s.findArm l = (down, some .down)) ∧
      (s.input l .upSense = s.input l .downSense → s.findArm l = s.attemptMotion l))

/-! ### Reads, waits, the Hold List (spec/04, 05, 06) -/

/-- PLATE_READ (R68): its tests; the plate is recorded, and a changed one without a watch mark is tested against the Hold List
(R83): the first entry that matches raises WATCH_HIT and sets the mark. -/
def Obligations.PlatesAreRead : Prop :=
  ∀ (s u : State) (tag : Byte) (body : List Byte) (n : Nat) (p : Text), Asked s 0x11 tag body u →
    readAll (readPair readU8 readText) body = some (n, p) →
    let answered (t : State) (st : Status) (d : List Byte) : Prop := Answers (.plateRead tag body) s 0x11 tag t st d
    (laneOf n = none → answered u .range []) ∧
    ∀ l, laneOf n = some l →
      let x := u.lane l
      (plateOk p = false → answered u .malformed []) ∧
      (plateOk p = true → x.takesReads = false → answered u .notApplied []) ∧
      (plateOk p = true → x.takesReads = true → ∀ v, x.visit = some v →
        (v.claimed ≠ none → answered u .notApplied []) ∧
        (v.claimed = none → x.state ≠ .checking →
          let u1 := u.setLane l { x with visit := some { v with plate := some p } }
          let hit := u.holds.find? fun h => h.kind == .plate && patternMatches h.pattern p
          (v.plate = some p → answered u .ok [0]) ∧
          (v.plate ≠ some p → v.plateWatch ≠ none ∨ hit = none → answered u1 .ok [0]) ∧
          (v.plate ≠ some p → v.plateWatch = none → ∀ h, hit = some h →
            u.exc.entries.length < 32 → u.exc.next ≤ 65535 → v.checks.watch.override = none →
            let held : Bool := h.action == .hold
            ∃ t, answered t .ok [0] ∧
              (t.visit l).map (fun w => (w.plate, w.plateWatch)) = some (some p, some ⟨h.action, h.reason⟩) ∧
              t.exc.entries.getLast? = some ⟨u.exc.next, .watchHit, some l, some v.number, none, h.reason, u.clock.minute,
                if held then .hold else .note, 0, if held then .opened else .logged, none, none, false⟩ ∧
              (t.lane l).state = (if held then .trouble else x.state) ∧ t.book = u.book ∧ t.holds = u.holds)))

/-- ID_READ (R69 to R74): a text is a valid ID exactly if it has the form and the check digit of R70; a read that is none is a
misread, charged to its position; an ID that another lane holds, or one that is no bring-in ID of the claimed booking, is not
recorded; any other is placed by the table of R73, with the position that R74 gives after the claim. -/
def Obligations.IdsAreRead : Prop :=
  (∀ c : Text,
    let letters := [10, 12, 13, 14, 15, 16, 17, 18, 19, 20, 21, 23, 24, 25, 26, 27, 28, 29, 30, 31, 32, 34, 35, 36, 37, 38]
    let char (i : Nat) : Nat := (c.getD i 0).toNat
    let value (i : Nat) : Nat := if char i < 65 then char i - 48 else letters.getD (char i - 65) 0
    let sum := ((List.range 10).map fun i => value i * 2 ^ i).sum
    cidOk c = true ↔ c.length = 11 ∧ (∀ i < 4, 65 ≤ char i ∧ char i ≤ 90) ∧
      (∀ i < 11, 4 ≤ i → 48 ≤ char i ∧ char i ≤ 57) ∧ char 10 = 48 + (if sum % 11 = 10 then 0 else sum % 11)) ∧
  ∀ (s u : State) (tag : Byte) (body : List Byte) (r : IdReq), Asked s 0x12 tag body u → readAll readId body = some r →
    let answered (t : State) (st : Status) (d : List Byte) : Prop := Answers (.idRead tag body) s 0x12 tag t st d
    (laneOf r.lane = none → answered u .range []) ∧
    ∀ l, laneOf r.lane = some l →
      let x := u.lane l
      let formed : Prop := r.text.length = 11 ∧ r.text.all isAlnum = true
      (¬formed → answered u .malformed []) ∧
      (formed → x.takesReads = false → answered u .notApplied []) ∧
      (formed → x.takesReads = true → ∀ v, x.visit = some v →
        let p : Pos := if r.pos = .rear then .rear else .front
        let c := r.text
        let f := v.front.cid
        let g := v.rear.cid
        let cids (t : State) : Option (Option Text × Option Text) := (t.visit l).map fun w => (w.front.cid, w.rear.cid)
        let elsewhere : Prop := ∃ m, m ≠ l ∧ ∃ w, u.visit m = some w ∧ (w.front.cid = some c ∨ w.rear.cid = some c)
        let moves := ((v.claimed.bind u.book.find).map Booking.moves).getD []
        let own := moves.find? fun m => m.kind.bringIn && m.cid == some c
        (cidOk c = false → ∃ t, answered t .ok [2] ∧ cids t = some (f, g) ∧
          (t.lane l).counters.misreads = min 65535 (x.counters.misreads + 1) ∧
          (t.visit l).map (fun w => (w.pos p).misreads) = some (min 255 ((v.pos p).misreads + 1)) ∧
          (t.visit l).map (fun w => (w.pos p.other).misreads) = some (v.pos p.other).misreads) ∧
        (cidOk c = true → elsewhere → ∃ t, answered t .ok [3] ∧ cids t = some (f, g) ∧
          (t.visit l).map (fun w => (w.pos p).conflict) = some true) ∧
        (cidOk c = true → ¬elsewhere → v.claimed ≠ none → own = none → ∃ t, answered t .ok [4] ∧ cids t = some (f, g) ∧
          (t.visit l).map (fun w => (w.pos p).mismatch) = some true) ∧
        (cidOk c = true → ¬elsewhere → v.claimed = none ∨ own ≠ none →
          let named : ReadPos :=
            if v.claimed = none then r.pos
            else if (own.map Move.length) ≠ some .l20 then .whole
            else if r.pos = .whole then .unknown else r.pos
          let duplicate : Byte × Option Text × Option Text := (1, f, g)
          let conflict : Byte × Option Text × Option Text := (3, f, g)
          let placed : Byte × Option Text × Option Text :=
            if named = .whole then
              if v.front.spanning = true ∧ f = some c then duplicate
              else if (f = none ∨ f = some c) ∧ (g = none ∨ g = some c) then (0, some c, some c)
              else conflict
            else if named = .unknown then
              if f = some c ∨ g = some c then duplicate
              else if f = none then (0, some c, g)
              else if g = none then (0, f, some c)
              else conflict
            else if v.front.spanning = true then if f = some c then duplicate else conflict
            else if f = some c ∧ g = none ∨ g = some c ∧ f = none then duplicate
            else if named = .front then
              if f = none then (0, some c, g) else if f = some c then duplicate else conflict
            else if g = none then (0, f, some c) else if g = some c then duplicate else conflict
          ∃ t, answered t .ok [placed.1] ∧ cids t = some placed.2 ∧
            (placed.1 = 1 → (t.lane l).counters.duplicates = min 65535 (x.counters.duplicates + 1)) ∧
            (placed.1 = 3 → (t.visit l).map (fun w => (w.pos p).conflict) = some true) ∧
            (placed.1 = 0 → named = .whole → (t.visit l).map (fun w => (w.front.spanning, w.rear.spanning)) =
              some (true, true))))

/-- SEAL_READ (R87, R88, R90): its tests, what it records before the claim, and after it for a position with a move, a read
that names UNKNOWN going to the first position whose move declares the seal, else to the only one with a move; and the table
of R91 by which a seal part is worked out. -/
def Obligations.SealsAreRead : Prop :=
  (∀ (m : Move) (seen : List SeenSeal) (phase : Phase),
    let extra : Prop := ∃ x ∈ seen, x.text ∉ m.seals
    let missing : Prop := ∃ t ∈ m.seals, ∀ x ∈ seen, x.text ≠ t
    (m.kind = .deliverFull →
      (extra → sealOutcome m seen phase = .mismatch) ∧ (¬extra → ¬missing → sealOutcome m seen phase = .ok) ∧
      (¬extra → missing → sealOutcome m seen phase = if phase = .closed then .missing else .pending)) ∧
    (m.kind ≠ .deliverFull →
      (seen ≠ [] → sealOutcome m seen phase = .unexpected) ∧
      (seen = [] → sealOutcome m seen phase = if phase = .closed then .ok else .pending))) ∧
  ∀ (s u : State) (tag : Byte) (body : List Byte) (r : SealReq), Asked s 0x13 tag body u → readAll readSeal body = some r →
    let answered (t : State) (st : Status) (d : List Byte) : Prop := Answers (.sealRead tag body) s 0x13 tag t st d
    (laneOf r.lane = none → answered u .range []) ∧
    ∀ l, laneOf r.lane = some l →
      let x := u.lane l
      let formed : Prop := r.pos ≠ .whole ∧ (r.source = .clerk → r.pos ≠ .unknown) ∧ sealOk r.text = true
      (¬formed → answered u .malformed []) ∧
      (formed → x.takesReads = false → answered u .notApplied []) ∧
      (formed → x.takesReads = true → ∀ v, x.visit = some v →
        let z : SeenSeal := ⟨r.text, r.source⟩
        let again (xs : List SeenSeal) : Bool := xs.any fun y => y.text == r.text
        let marked (xs : List SeenSeal) : List SeenSeal :=
          xs.map fun y => if y.text = r.text ∧ r.source = .clerk then { y with source := .clerk } else y
        let now (w : Visit) (c : LaneCounters) : State := u.setLane l { x with visit := some w, counters := c }
        let counted : LaneCounters := { x.counters with duplicates := min 65535 (x.counters.duplicates + 1) }
        let named : Pos := if r.pos = .rear ∧ v.rear.spanning = false then .rear else .front
        let declares (q : Pos) : Prop := ∃ m, u.moveOf l q = some m ∧ m.kind = .deliverFull ∧ r.text ∈ m.seals
        let goes (q : Pos) : Prop :=
          if r.pos ≠ .unknown then q = named
          else if declares .front then q = .front
          else if declares .rear then q = .rear
          else u.moveOf l q ≠ none ∧ u.moveOf l q.other = none
        (v.claimed = none → r.pos = .unknown →
          (again v.unplaced = true → answered (now { v with unplaced := marked v.unplaced } counted) .ok [2]) ∧
          (again v.unplaced = false → v.unplaced.length < 4 →
            answered (now { v with unplaced := v.unplaced ++ [z] } x.counters) .ok [1]) ∧
          (again v.unplaced = false → 4 ≤ v.unplaced.length → answered u .full [])) ∧
        (v.claimed ≠ none → (∀ q, goes q → u.moveOf l q = none) → answered u .notApplied []) ∧
        ∀ p, goes p → v.claimed = none ∧ r.pos ≠ .unknown ∨ v.claimed ≠ none ∧ u.moveOf l p ≠ none →
          let seen := (v.pos p).sealPart.seen
          let withSeen (made : Bool) (xs : List SeenSeal) : Visit :=
            v.setPos p { v.pos p with made := made, sealPart := { (v.pos p).sealPart with seen := xs } }
          (again seen = true → answered (now (withSeen (v.pos p).made (marked seen)) counted) .ok [2]) ∧
          (again seen = false → 4 ≤ seen.length → answered u .full []) ∧
          (again seen = false → seen.length < 4 →
            (v.claimed = none → answered (now (withSeen true (seen ++ [z])) x.counters) .ok [0]) ∧
            (v.claimed ≠ none → (v.pos p).sealPart.final = true →
              answered (now (withSeen (v.pos p).made (seen ++ [z])) x.counters) .ok [3]) ∧
            (v.claimed ≠ none → (v.pos p).sealPart.final = false → ∃ t, answered t .ok [0] ∧
              (t.visit l).map (fun w => (w.pos p).sealPart.seen) = some (seen ++ [z]))))

/-- SURVEY (R100 to R102): its tests; the survey is held before the claim and for a position whose box is only expected, and
graded for a box that is recorded. The arithmetic of R103 to R106: the sum of a panel over its surviving defects, at most 500,
and the index over the five panels (R105); shallow defects do not count, the order of defects does not count, a further defect
never lowers the index, the bounds, and the grade. -/
def Obligations.SurveysAreGraded : Prop :=
  (∀ (d : DamagePart) (t : GradeTerms) (ds : List Defect) (n : Nat),
    let g := d.grade t ⟨ds, n⟩
    let weight (k : DefectType) : Nat := match k with | .dent => 2 | .bulge => 2 | .scrape => 1 | .tear => 5 | .hole => 8
    let points (e : Defect) : Nat := min 300 (e.depth * weight e.type * (e.area + 64) / 1024)
    let panels : List Panel := [.left, .right, .frontEnd, .doorEnd, .roof]
    (∀ p, g.sums.get p =
      min 500 ((ds.filter fun e => decide (t.minDepth ≤ e.depth ∧ e.panel = p)).map points).sum) ∧
    g.index = min 1000 ((panels.map fun p => g.sums.get p * t.weights.get p).sum / 8) ∧
    (∀ e : Defect, t.minDepth ≤ e.depth → (d.grade t ⟨[e], n⟩).index =
      min 1000 (min 300 (e.depth * weight e.type * (e.area + 64) / 1024) * t.weights.get e.panel / 8)) ∧
    ((d.grade t ⟨ds.filter fun e => decide (t.minDepth ≤ e.depth), n⟩).index = g.index) ∧
    (∀ es : List Defect, es.Perm ds → (d.grade t ⟨es, n⟩).index = g.index ∧ (d.grade t ⟨es, n⟩).outcome = g.outcome) ∧
    (∀ e : Defect, g.index ≤ (d.grade t ⟨e :: ds, n⟩).index) ∧
    (∀ p, g.sums.get p ≤ 500) ∧ g.index ≤ 1000 ∧ g.excess = g.index - t.known ∧
    (g.breach = true ↔ ∃ e ∈ ds, t.minDepth ≤ e.depth ∧ e.type = .hole ∧ (e.panel = .doorEnd ∨ e.panel = .roof)) ∧
    (g.breach = true → g.outcome = .severe) ∧
    (g.breach = false → g.outcome =
      if g.excess < t.note then .clean else if g.excess < t.severe then .noted else .severe) ∧
    (t.severe ≤ t.note → g.outcome ≠ .noted)) ∧
  ∀ (s u : State) (tag : Byte) (body : List Byte) (r : SurveyReq), Asked s 0x14 tag body u → readAll readSurvey body = some r →
    let answered (t : State) (st : Status) (d : List Byte) : Prop := Answers (.survey tag body) s 0x14 tag t st d
    (laneOf r.lane = none → answered u .range []) ∧
    ∀ l, laneOf r.lane = some l →
      let x := u.lane l
      (r.pos = .unknown → answered u .malformed []) ∧
      (r.pos ≠ .unknown → 16 < r.defects.length → answered u .range []) ∧
      (r.pos ≠ .unknown → r.defects.length ≤ 16 → x.takesReads = false → answered u .notApplied []) ∧
      (r.pos ≠ .unknown → r.defects.length ≤ 16 → x.takesReads = true → ∀ v, x.visit = some v →
        let p : Pos := if r.pos = .rear ∧ v.rear.spanning = false then .rear else .front
        let apart : Prop := r.pos = .whole ∧ (v.front.cid ≠ none ∧ v.rear.cid ≠ none ∧ v.front.cid ≠ v.rear.cid ∨
          v.claimed ≠ none ∧ v.rear.sealPart.move ≠ none)
        let taken : List Defect := r.defects.map fun e => { e with area := max 1 (min 4095 e.area) }
        let sv : Survey := ⟨taken, v.surveys + 1⟩
        let move := (v.pos p).sealPart.move
        let damage (t : State) : Option DamagePart := (t.visit l).map fun w => (w.pos p).damage
        (apart → answered u .notApplied []) ∧
        (¬apart →
          (v.claimed = none → ∃ t, answered t .ok [0] ∧ (damage t).map DamagePart.held = some (some sv)) ∧
          (v.claimed ≠ none → move = none → answered u .notApplied []) ∧
          (v.claimed ≠ none → ∀ k, move = some (k, .expected) →
            ∃ t, answered t .ok [0] ∧ (damage t).map DamagePart.held = some (some sv)) ∧
          (v.claimed ≠ none → ∀ k m, move = some (k, .recorded) → moveAt (u.claimedMoves l) k = some m →
            let w := u.store.work
            let g := (v.pos p).damage.grade ⟨w.minDepth, w.weights, w.noteThreshold, w.severeThreshold, m.known⟩ sv
            ∃ t, answered t .ok (u8 1 ++ u16 g.index ++ u16 g.excess ++
                u8 (match g.outcome with | .clean => 0 | .noted => 1 | _ => 2) ++ (if g.breach then [1] else [0]) ++
                u8 g.survived) ∧
              (damage t).map (fun e => (e.graded, e.held, e.sums, e.index, e.excess)) =
                some (some sv, none, g.sums, g.index, g.excess) ∧
              (damage t).map (fun e => (e.breach, e.survived, e.knownUsed, e.outcome)) =
                some (g.breach, g.survived, m.known, g.outcome))))

/-- The expiry of the seal wait (R94) and of the survey wait (R110): the wait is over, no part with a move is OPEN any longer.
With the parts where R89 finds their moves: a position whose box is only expected is marked unreadable, with ID_UNREADABLE
raised at the first time (R76); an OPEN part still without a declared seal raises SEAL_MISSING at the first time and is
EXTENDED, with a REREAD, if that is stored under RETRY, else CLOSED and MISSING, under HOLD in TROUBLE (R95); every other OPEN
part is worked out. An OPEN part without a survey raises SURVEY_MISSING at the first time: stored under RETRY it is EXTENDED
with its outcome as it was and a REREAD is sent; under NOTE, under HOLD, which puts the lane into TROUBLE, not stored, with
the unrecorded-hold flag under HOLD, or with the mark already set it is CLOSED and UNSURVEYED, the effect setting being read
(R111, R157). A wait that does not run changes nothing. -/
def Obligations.WaitsEnd : Prop :=
  ∀ (s : State) (l : LaneNo), s.power = true →
    ((∀ v, s.visit l = some v → v.sealWait = none) → exec (.sealWaitExpiry l) s = .next s) ∧
    ((∀ v, s.visit l = some v → v.surveyWait = none) → exec (.surveyWaitExpiry l) s = .next s) ∧
    ∀ v, s.visit l = some v →
      (v.sealWait ≠ none → ∃ t, exec (.sealWaitExpiry l) s = .next t ∧ (t.visit l).map Visit.sealWait = some none ∧
        t.book = s.book ∧ t.pool.bays.length = s.pool.bays.length ∧
        (s.claimedBooking l ≠ none → ∀ p, (t.visit l).map (fun w =>
          let e := (w.pos p).sealPart
          decide (e.phase = .extended ∨ e.phase = .closed ∧
            (e.outcome ≠ .pending ∨ (v.pos .front).sealPart.phase = .closed ∨ (v.pos .rear).sealPart.phase = .closed))) =
              some true) ∧
        (seatMoves (s.claimedMoves l) v.front v.rear = (v.front.sealPart.move, v.rear.sealPart.move) → ∀ q n b,
          (v.pos q).sealPart.move = some (n, b) →
          let z := (v.pos q).sealPart
          let work := s.store.work
          let roomy : Prop := s.exc.entries.length ≤ 16 ∧ s.exc.next ≤ 65000
          let raised (k : ExcKind) (detail : Nat) (r : Response) : Prop := ∃ e ∈ t.exc.entries, s.exc.next ≤ e.number ∧
            e.kind = k ∧ e.lane = some l ∧ e.visit = some v.number ∧ e.pos = some q ∧ e.detail = detail ∧ e.response = r
          (t.visit l).map (fun w => (w.pos q).unreadable) = some ((v.pos q).unreadable || b == .expected) ∧
          (b = .expected → (v.pos q).unreadable = false → roomy → work.response .idUnreadable ≠ .silent →
            raised .idUnreadable 0 (if work.response .idUnreadable = .retry ∧ work.limit .idUnreadable = 0 then .hold
              else work.response .idUnreadable)) ∧
          ∀ m, moveAt (s.claimedMoves l) n = some m → z.phase = .opened →
            let lacking := m.seals.filter fun c => !(z.seen.any fun y => y.text == c)
            let waits : Prop := m.kind = .deliverFull ∧ z.outcome = .pending ∧ lacking ≠ [] ∧ ∀ y ∈ z.seen, y.text ∈ m.seals
            let retry : Prop := work.response .sealMissing = .retry ∧ work.limit .sealMissing ≠ 0
            let now := (t.visit l).map fun w => ((w.pos q).sealPart.phase, (w.pos q).sealPart.outcome)
            let check := v.checks.get (match q with | .front => .sealFront | .rear => .sealRear)
            (waits → z.missingMark = true ∨ ¬retry → now = some (.closed, .missing)) ∧
            (waits → z.missingMark = false → check.override = none → roomy →
              (retry → now = some (.extended, .pending) ∧ raised .sealMissing lacking.length .retry ∧
                (s.link.noticeCount ≤ 16 → work.mask .reread = true → .notice ⟨.reread, [1, BitVec.ofNat 8 (l.ctorIdx + 1)] ++
                  u16 v.number ++ [BitVec.ofNat 8 q.ctorIdx] ++ textField (m.cid.getD []) ++ listField textField lacking⟩ ∈
                    t.link.outbox)) ∧
              (work.response .sealMissing = .note → raised .sealMissing lacking.length .note) ∧
              (work.response .sealMissing = .hold ∨ work.response .sealMissing = .retry ∧ work.limit .sealMissing = 0 →
                raised .sealMissing lacking.length .hold ∧ ((s.lane l).state = .checking → (t.lane l).state = .trouble))) ∧
            (¬waits → now = some (.closed,
              if z.outcome = .ok ∨ z.outcome = .notApplicable then z.outcome else sealOutcome m z.seen .closed)))) ∧
      (v.surveyWait ≠ none → ∃ t, exec (.surveyWaitExpiry l) s = .next t ∧ (t.visit l).map Visit.surveyWait = some none ∧
        t.book = s.book ∧
        ∀ p, let d := (v.pos p).damage
          let after (f : DamagePart → Bool) : Option Bool := (t.visit l).map fun w => f (w.pos p).damage
          ((v.pos p).sealPart.move = none ∨ d.phase ≠ .opened → after (fun e => decide (e = d)) = some true) ∧
          ((v.pos p).sealPart.move ≠ none → d.phase = .opened →
            (d.graded ≠ none ∨ d.held ≠ none → after (fun e => decide (e = { d with phase := .closed })) = some true) ∧
            (d.graded = none → d.held = none →
              let work := s.store.work
              let retry : Prop := work.response .surveyMissing = .retry ∧ work.limit .surveyMissing ≠ 0
              let holds : Prop := work.response .surveyMissing = .hold ∨
                work.response .surveyMissing = .retry ∧ work.limit .surveyMissing = 0
              let full : Prop := 65535 < s.exc.next ∨
                32 ≤ s.exc.entries.length ∧ ∀ e ∈ s.exc.entries, e.state = .opened
              let roomy : Prop := s.exc.entries.length ≤ 16 ∧ s.exc.next ≤ 65000
              let check := v.checks.get (match p with | .front => .damageFront | .rear => .damageRear)
              let raised (r : Response) : Prop := ∃ e ∈ t.exc.entries, s.exc.next ≤ e.number ∧ e.kind = .surveyMissing ∧
                e.lane = some l ∧ e.visit = some v.number ∧ e.pos = some p ∧ e.detail = 0 ∧ e.response = r
              let held : Prop := (s.lane l).state = .checking → (t.lane l).state = .trouble
              after (fun e => e.missingMark) = some true ∧
              (d.missingMark = true ∨ ¬retry ∨ full ∨ check.override ≠ none →
                after (fun e => decide (e.phase = .closed ∧ e.outcome = .unsurveyed ∧
                  e.effectInspect = work.surveyMissingInspect)) = some true) ∧
              (d.missingMark = false → check.override = none →
                (retry → roomy → raised .retry ∧
                  after (fun e => decide (e.phase = .extended ∧ e.outcome = d.outcome)) = some true ∧
                  ∀ n b m, (v.pos p).sealPart.move = some (n, b) → moveAt (s.claimedMoves l) n = some m →
                    s.link.noticeCount ≤ 16 → work.mask .reread = true →
                    .notice ⟨.reread, [2, BitVec.ofNat 8 (l.ctorIdx + 1)] ++ u16 v.number ++ [BitVec.ofNat 8 p.ctorIdx] ++
                      textField (m.cid.getD [])⟩ ∈ t.link.outbox) ∧
                (work.response .surveyMissing = .note → roomy → raised .note) ∧
                (holds → roomy → raised .hold ∧ held) ∧
                (holds → full → t.exc.unrecorded.get l = true ∧ held)))))

/-- HOLD_ADD and HOLD_REMOVE (R81, R82): their tests in order, the entry that joins at the end, the entries that leave. A pattern
matches a text (R80) if it fits it place by place, a letter or digit itself, ? any one character; a final * takes any rest. -/
def Obligations.HoldListIsKept : Prop :=
  (∀ p t : Text, 42 ∉ p →
    let fits (a b : Text) : Prop := List.Forall₂ (fun x y : Byte => x = 63 ∨ x = y) a b
    (patternMatches p t = true ↔ fits p t) ∧ (patternMatches (p ++ [42]) t = true ↔ ∃ a b, t = a ++ b ∧ fits p a)) ∧
  ∀ (s u : State) (tag : Byte) (body : List Byte),
    (∀ e, Asked s 0x15 tag body u → readAll readHoldAdd body = some e →
      let answered (t : State) (st : Status) (d : List Byte) : Prop := Answers (.holdAdd tag body) s 0x15 tag t st d
      if patternOk e.pattern = false then answered u .malformed []
      else if ∃ h ∈ u.holds, h.kind = e.kind ∧ h.pattern = e.pattern then answered u .duplicate []
      else if 64 ≤ u.holds.length then answered u .full []
      else answered { u with holds := u.holds ++ [e] } .ok
        [BitVec.ofNat 8 (u.holds.length + 1), BitVec.ofNat 8 (u.holds.length + 1)]) ∧
    ∀ k p, Asked s 0x16 tag body u → readAll readHoldRemove body = some (k, p) →
      let answered (t : State) (st : Status) (d : List Byte) : Prop := Answers (.holdRemove tag body) s 0x16 tag t st d
      let named (h : HoldEntry) : Prop := h.kind = k ∧ h.pattern = p
      if patternOk p = false then answered u .malformed []
      else if ∃ h ∈ u.holds, named h then ∃ hs : List HoldEntry,
        answered { u with holds := hs } .ok [BitVec.ofNat 8 hs.length] ∧ hs.Sublist u.holds ∧
          ∀ h, h ∈ hs ↔ h ∈ u.holds ∧ ¬named h
      else answered u .notFound []

/-! ### Checks and verdicts (spec/07) -/

/-- OVERRIDE (R121): the check takes the override and keeps its outcome, no other check's override changes, and no entry of
the visit that belongs to the check stands OPEN or LOGGED. UNOVERRIDE (R123): the override becomes none, and the check takes
the outcome that the data held gives it (R117 to R119, R113, a waived kind being passed over, R120, but for a waived
DAMAGE_NOTED, with which a check at NOTED keeps NOTED, and a spanning box being the identity FRONT: log 25); WATCH and RELEASE
are PENDING before any attempt; RELEASE found NOT_RELEASED here raises nothing, the model's choice (log 47); an attempt that
follows in CHECKING evaluates RELEASE and WATCH again. -/
def Obligations.ChecksAreOverridden : Prop :=
  ∀ (s u : State) (tag : Byte) (body : List Byte), Bounds u →
    (∀ n c b, Asked s 0x17 tag body u → readAll readOverride body = some (n, c, b) →
      let answered (t : State) (st : Status) : Prop := Answers (.override tag body) s 0x17 tag t st []
      (laneOf n = none → answered u .range) ∧
      ∀ l, laneOf n = some l →
        (u.takesOverride l = false → answered u .wrongState) ∧
        (u.takesOverride l = true → ∀ v, u.visit l = some v → ∃ t, answered t .ok ∧
          (t.visit l).map (fun w => w.number) = some v.number ∧
          (t.visit l).map (fun w => (w.checks.get c).override) = some (some b) ∧
          (t.visit l).map (fun w => (w.checks.get c).outcome) = some (v.checks.get c).outcome ∧
          (∀ k, k ≠ c → (t.visit l).map (fun w => (w.checks.get k).override) = some (v.checks.get k).override) ∧
          ∀ e ∈ t.exc.entries, e.lane = some l → e.visit = some v.number → checkOf e.kind e.pos = some c →
            e.state = .resolved)) ∧
    ∀ n c, Asked s 0x18 tag body u → readAll readUnoverride body = some (n, c) →
      let answered (t : State) (st : Status) : Prop := Answers (.unoverride tag body) s 0x18 tag t st []
      (laneOf n = none → answered u .range) ∧
      ∀ l, laneOf n = some l →
        (u.takesOverride l = false → answered u .wrongState) ∧
        (u.takesOverride l = true → ∀ v, u.visit l = some v →
          ((v.checks.get c).override = none → answered u .ok) ∧
          ((v.checks.get c).override ≠ none → ∃ t, answered t .ok ∧
            (t.visit l).map (fun w => (w.checks.get c).override) = some none ∧
            (∀ k, k ≠ c → (t.visit l).map (fun w => (w.checks.get k).override) = some (v.checks.get k).override) ∧
            let was := v.checks.get c
            let work := u.store.work
            let moves := ((v.claimed.bind u.book.find).map Booking.moves).getD []
            let orPass (k : ExcKind) (o : Outcome) : Outcome := if was.waives k then .pass else o
            let search (k : ExcKind) (o : Outcome) : Outcome :=
              if was.waives k then (if v.claimed = none then .pending else .pass) else o
            let id (r : PosRec) : Outcome :=
              let mismatch := r.mismatch && !was.waives .containerMismatch
              let conflict := r.conflict && !was.waives .idConflict
              if v.claimed = none then
                if conflict then .idConflict
                else if r.unreadable ∧ r.cid = none ∧ was.waives .idUnreadable = false then .idUnreadable else .pending
              else
                let lacks := r.sealPart.move.any fun m => m.2 == .expected
                if mismatch then .containerMismatch
                else if conflict then .idConflict
                else if r.unreadable ∧ lacks ∧ was.waives .idUnreadable = false then .idUnreadable
                else if r.sealPart.move = none ∨ (∃ m ∈ moves, m.kind.bringIn = true ∧ m.cid ≠ none ∧ m.cid = r.cid) then .pass
                else if r.unreadable ∧ was.waives .idUnreadable = true then .pass else .pending
            let sealed (z : SealPart) : Outcome := match z.outcome with
              | .pending => .pending
              | .ok | .notApplicable => .pass
              | .mismatch => orPass .sealMismatch .sealMismatch
              | .unexpected => orPass .sealUnexpected .sealUnexpected
              | .missing => orPass .sealMissing .sealMissing
            let damaged (z : DamagePart) (m : Option Move) : Outcome :=
              let o := match z.graded, m with
                | some sv, some m =>
                  (z.grade ⟨work.minDepth, work.weights, work.noteThreshold, work.severeThreshold, m.known⟩ sv).outcome
                | _, _ => z.outcome
              match o with
              | .pending => .pending
              | .clean => .clean
              | .noted => .noted
              | .severe => orPass .damageSevere .severe
              | .unsurveyed => if work.surveyMissingInspect then orPass .surveyMissing .surveyMissing else .pass
              | .notApplicable => .pass
            let inspects (m : Option Watch) (is : List Identity) : Bool :=
              m.any (fun w => w.action == .inspect) && !(is.any fun i => was.waivers.contains (.identity i))
            let anew : Outcome := match c with
              | .booking => match v.lastBooking with
                | .noBooking => search .noBooking .noBooking
                | .bookingInUse => search .bookingInUse .bookingInUse
                | o => o
              | .timeliness => match v.lastTimeliness with
                | .windowEarly => search .windowEarly .windowEarly
                | .windowLateFull => search .windowLateFull .windowLateFull
                | o => o
              | .release =>
                if v.attempted = false ∨ v.claimed = none then .pending
                else if moves.any fun m => m.kind == .pickImport && !m.released then orPass .notReleased .notReleased else .pass
              | .watch =>
                if v.attempted = false then .pending
                else if inspects v.plateWatch [.plate] || (if v.front.spanning then inspects v.front.watch [.front, .rear]
                  else inspects v.front.watch [.front] || inspects v.rear.watch [.rear]) then .watchHit else .pass
              | .idFront => id v.front
              | .idRear => id v.rear
              | .sealFront => sealed v.front.sealPart
              | .sealRear => sealed v.rear.sealPart
              | .damageFront => damaged v.front.damage (u.moveOf l .front)
              | .damageRear => damaged v.rear.damage (u.moveOf l .rear)
            (c = .damageFront ∨ c = .damageRear → ∀ p : Pos, (v.pos p).damage.graded ≠ none →
              (v.pos p).damage.outcome ≠ .unsurveyed ∧ u.moveOf l p ≠ none) →
            ((u.lane l).state ≠ .checking ∨ c ≠ .release ∧ c ≠ .watch →
              (t.visit l).map (fun w => (w.checks.get c).outcome) = some anew) ∧
            ((u.lane l).state ≠ .checking →
              (t.visit l).map (fun w => (w.checks.get c).changed) = some (was.changed || anew != was.outcome))))

/-- The verdict (R126): TURN_AWAY, INSPECT or ADMIT by the values at which the checks stand, with the first reason that holds
in the order of R126. The VERDICT notice (R127), ahead of the LANE_STATE notice of DECIDED; the changed marks it carries are
cleared if it is queued, and left as they stood if it is masked or dropped (its field order and the code of a reason are log
21's, marks as log 28 codes them, the order of waivers log 45's). In CHECKING it is attempted exactly when the SEAL, DAMAGE
and ID checks are settled and no entry of a check stands OPEN under RETRY (R124). An attempt made while the lane gathers reads
ends in a hold without a verdict, or with the verdict and reason of R126 recorded and the timers of the visit stopped (R125,
R40); once it is formed no check is evaluated (R128). -/
def Obligations.VerdictsAreDecided : Prop :=
  (∀ v : Visit,
    let stands (c : CheckName) : Outcome := v.checks.value c
    let fails (c : CheckName) : Prop := stands c ≠ .pending ∧ stands c ≠ .pass ∧ stands c ≠ .clean ∧ stands c ≠ .noted
    let away : Prop := v.turnAwayMark = true ∨ fails .booking ∨ fails .timeliness ∨ v.matchState ≠ .claimed ∨
      fails .release ∨ stands .idFront = .containerMismatch ∨ stands .idRear = .containerMismatch
    let idBad (c : CheckName) : Prop := stands c = .idConflict ∨ stands c = .idUnreadable ∨ stands c = .fail
    let damageBad (c : CheckName) : Prop := stands c = .severe ∨ stands c = .surveyMissing
    let inspect : Prop := idBad .idFront ∨ idBad .idRear ∨ fails .sealFront ∨ fails .sealRear ∨
      damageBad .damageFront ∨ damageBad .damageRear ∨ stands .watch = .watchHit ∨ stands .watch = .fail
    (away ↔ (decideVerdict v).1 = .turnAway) ∧ (¬away ∧ inspect ↔ (decideVerdict v).1 = .inspect) ∧
      (¬away ∧ ¬inspect ↔ (decideVerdict v).1 = .admitIn) ∧ (v.turnAwayMark = true → (decideVerdict v).2 = some .forced) ∧
      ((decideVerdict v).1 = .admitIn → (decideVerdict v).2 = none) ∧
      (∀ c o, (decideVerdict v).2 = some (.check c o) → o = stands c) ∧
      (let mismatch (c : CheckName) : Bool := decide (stands c = .containerMismatch)
       let check (c : CheckName) : Reason := .check c (stands c)
       let order : List (Bool × Reason) := [(v.turnAwayMark, .forced), (decide (fails .booking), check .booking),
         (decide (fails .timeliness), check .timeliness), (decide (v.matchState ≠ .claimed), .noClaim),
         (decide (fails .release), check .release), (mismatch .idFront, check .idFront), (mismatch .idRear, check .idRear)]
       (decideVerdict v).1 = .turnAway → (decideVerdict v).2 = (order.find? fun r => r.1).map fun r => r.2) ∧
      (let order : List (CheckName × Bool) := [(.idFront, decide (idBad .idFront)), (.idRear, decide (idBad .idRear)),
         (.sealFront, decide (fails .sealFront)), (.sealRear, decide (fails .sealRear)),
         (.damageFront, decide (damageBad .damageFront)), (.damageRear, decide (damageBad .damageRear)),
         (.watch, decide (stands .watch = .watchHit ∨ stands .watch = .fail))]
       (decideVerdict v).1 = .inspect → (decideVerdict v).2 =
         (order.find? fun c => c.2).map fun c => .check c.1 (stands c.1))) ∧
  (∀ (s : State) (l : LaneNo) (v : Visit) (d : Verdict), s.visit l = some v → v.verdict = some d →
    let mark (b : Bool) : List Byte := if b then [1] else [0]
    let place : CheckName → Nat
      | .booking => 1 | .timeliness => 2 | .release => 4 | .idFront => 5 | .idRear => 6 | .sealFront => 7
      | .sealRear => 8 | .damageFront => 9 | .damageRear => 10 | .watch => 11
    let reason : List Byte := match v.reason with
      | none => [0]
      | some .forced => [1, 0, 0]
      | some .noClaim => [1, 3, 0]
      | some (.check c o) => [1] ++ u8 (place c) ++ [1] ++ u8 o.ctorIdx
    let waiver (w : Waiver) : List Byte := match w with | .kind k => u8 k.ctorIdx | .identity i => u8 i.ctorIdx
    let names : List CheckName :=
      [.booking, .timeliness, .release, .watch, .idFront, .idRear, .sealFront, .sealRear, .damageFront, .damageRear]
    let check (c : CheckName) (k : Check) : List Byte :=
      u8 k.outcome.ctorIdx ++ (match k.override with | none => [0] | some b => if b then [1] else [2]) ++ mark k.changed ++
        u8 k.ignored ++ u8 k.waivers.length ++ k.waivers.flatMap waiver ++ u8 (v.checks.value c).ctorIdx
    let n : Notice := ⟨.verdict, [BitVec.ofNat 8 (l.ctorIdx + 1)] ++ u16 v.number ++ u8 d.ctorIdx ++ reason ++
      u32 (v.claimed.getD 0) ++ u32 (v.refused.getD 0) ++
      (match v.timeliness with | none => [0] | some c => [1] ++ u8 c.ctorIdx) ++
      names.flatMap (fun c => check c (v.checks.get c)) ++ mark v.turnAwayMark⟩
    let goes : Prop := s.store.work.mask .verdict = true ∧ s.link.noticeCount < 32
    let told : State := s.queueNotice n
    (¬goes → s.tellVerdict l = told) ∧
    (goes → ∃ c : Checks, (∀ k, c.get k = { v.checks.get k with changed := false }) ∧
      s.tellVerdict l = told.setLane l { s.lane l with visit := some { v with checks := c } })) ∧
  (∀ (v : Visit) ms c a, v.verdict ≠ none → v.evaluate ms c a = v) ∧
  (∀ (s : State) (l : LaneNo) (v : Visit), s.visit l = some v →
    let settled (sc dc ic : Check) (r : PosRec) : Prop :=
      (sc.override ≠ none ∨ r.sealPart.outcome = .ok ∨ r.sealPart.outcome = .notApplicable ∨ r.sealPart.phase = .closed) ∧
        (dc.override ≠ none ∨ r.damage.graded ≠ none ∨ r.damage.phase = .closed) ∧
        (ic.override ≠ none ∨ ic.outcome ≠ .pending)
    let c := v.checks
    let ready : Prop := settled c.sealFront c.damageFront c.idFront v.front ∧ settled c.sealRear c.damageRear c.idRear v.rear ∧
      ∀ e ∈ s.exc.entries, e.state = .opened → e.response = .retry → e.lane = some l → e.visit = some v.number →
        checkOf e.kind e.pos = none
    ((s.lane l).state ≠ .checking ∨ ¬ready → s.settle l = s) ∧
      ((s.lane l).state = .checking → ready → s.settle l = s.attempt l)) ∧
  ∀ (s : State) (l : LaneNo) (v : Visit), s.visit l = some v → v.verdict = none →
    (s.lane l).state = .arriving ∨ (s.lane l).state = .awaitingHost ∨ (s.lane l).state = .checking →
    let t := s.attempt l
    ∃ w, t.visit l = some w ∧ w.number = v.number ∧ w.attempted = true ∧
      ((t.lane l).state = .trouble ∧ w.verdict = none ∨
        w.verdict = some (decideVerdict w).1 ∧ w.reason = (decideVerdict w).2 ∧
        w.idSettle = none ∧ w.lookup = none ∧ w.abandon = none ∧ w.sealWait = none ∧ w.surveyWait = none ∧
        (w.handed = true ∨ w.verdict = some .inspect ∧ w.bayStep = .pending) ∧
        ((t.lane l).state = .decided ∨ (t.lane l).state = .exiting ∨ (t.lane l).state = .trouble) ∧
        ∃ (u : State) (y : Visit), u.visit l = some y ∧ y.number = v.number ∧ y.verdict = some (decideVerdict y).1 ∧
          y.reason = (decideVerdict y).2 ∧ y.verdict = w.verdict ∧ y.reason = w.reason ∧ (u.lane l).state = (s.lane l).state ∧
          t = (u.tellVerdict l).enterDecided l ∧
          ∃ ms : List Notice, t.link.outbox = ((u.tellVerdict l).queueNotice ⟨.laneState, [BitVec.ofNat 8 (l.ctorIdx + 1),
            BitVec.ofNat 8 (s.lane l).state.ctorIdx, 5] ++ u16 v.number ++ [0, 5]⟩).link.outbox ++ ms.map OutMsg.notice)

/-! ### Driver directions and sign lines (spec/08) -/

/-- READY, SIGN_FRAME_RECEIVED and SIGN_TEXT: a READY sets the credit to its count (R136) and the head group, once it may
start, is sent record by record while credit lasts, piecewise where it is larger than the sign capacity, one DIRECTION for
each record (R137, R185); a host text delivered leaves the queue, a visit group delivered is told to its lane, which tests its
release (R133, R138, R41); credit left over serves the next group; a READY frame is that event, any other frame none (R129); a
text joins the queue in its order, which is then served with the credit that stands (R135). Two readings of the model: a
delivered group is the present visit's if it bears its number, also where an earlier visit joined it (log 38); a frame is a
READY only with tag 0, kind 1 and one byte of body (log 30). -/
def Obligations.DirectionsAreSent : Prop :=
  (∀ (s : State) (l : LaneNo) (c : Byte), s.power = true →
    let x := s.lane l
    let cap := s.store.work.signCapacity.get l
    let given (q : Sign) : State := s.setLane l { x with sign := q }
    (c = 0 ∨ 8 < c.toNat → exec (.ready l c) s = .next s) ∧
    (1 ≤ c.toNat → c.toNat ≤ 8 →
      ((∀ g ∈ x.sign.queue, ∀ r ∈ g.recs, r.sent = true) →
        exec (.ready l c) s = .next (given { x.sign with credit := c.toNat })) ∧
      ∀ pre g post done todo, x.sign.queue = pre ++ g :: post → (∀ d ∈ pre, ∀ r ∈ d.recs, r.sent = true) →
        g.recs = done ++ todo → (∀ r ∈ done, r.sent = true) → (∀ r ∈ todo, r.sent = false) → todo ≠ [] →
        let n := c.toNat
        let size := g.recs.length
        let goes : Prop := done ≠ [] ∨ size ≤ n ∨ cap < size ∧ cap ≤ n
        (¬goes → exec (.ready l c) s = .next (given { x.sign with credit := n })) ∧
        (goes →
          let k := min n todo.length
          let frames := ((g.recs.zipIdx.drop done.length).take k).map fun r => encodeFrame 0 2 (u16 g.visit ++
            [BitVec.ofNat 8 (l.ctorIdx + 1)] ++ u8 size ++ u8 (r.2 + 1) ++ directionFields r.1.dir)
          let now : Group := ⟨g.visit, done ++ ((todo.take k).map fun r => { r with sent := true }) ++ todo.drop k⟩
          let queue := pre ++ (if todo.length ≤ n ∧ g.visit = 0 then [] else [now]) ++ post
          let waits : Bool := queue.any fun d => d.recs.any fun r => !r.sent
          let sent : Sign :=
            ⟨queue, n - k, if waits then some s.store.work.signStall else none, false, x.sign.rx, x.sign.out ++ frames⟩
          let told : Prop := todo.length ≤ n ∧ g.visit ≠ 0 ∧ ∃ v, x.visit = some v ∧ v.number = g.visit
          (n = k ∨ waits = false →
            (¬told → exec (.ready l c) s = .next (given sent)) ∧
            (told → exec (.ready l c) s = .next (State.testRelease (s.setLane l { x with
              sign := sent, visit := x.visit.map fun v => { v with delivered := true } }) l))) ∧
          (k < n → ∃ t u, exec (.ready l (BitVec.ofNat 8 (n - k))) (given sent) = .next u ∧
            exec (.ready l c) s = .next t ∧ (t.lane l).sign = (u.lane l).sign ∧
            (told → (t.visit l).map Visit.delivered = some true) ∧
            (¬told → (t.visit l).map Visit.delivered = (u.visit l).map Visit.delivered))))) ∧
  (∀ (s : State) (l : LaneNo) (f : Frame), s.power = true → (s.lane l).sign.rx = [] → f.body.length ≤ 500 →
    exec (.signFrameReceived l (encodeFrame f.tag f.kind f.body)) s =
      match f.body with
      | [c] => if f.tag = 0 ∧ f.kind = 1 then exec (.ready l c) s else .next s
      | _ => .next s) ∧
  ∀ (s u : State) (tag : Byte) (body : List Byte) (n : Nat) (p : Text), Asked s 0x19 tag body u →
    readAll (readPair readU8 readText) body = some (n, p) →
    let answered (t : State) (st : Status) : Prop := Answers (.signText tag body) s 0x19 tag t st []
    (laneOf n = none → answered u .range) ∧
    ∀ l, laneOf n = some l →
      let x := u.lane l
      let given (q : Sign) : State := u.setLane l { x with sign := q }
      let ok : Prop := p.length ≤ 24 ∧ ∀ b ∈ p, isAlnum b = true ∨ b = 0x20
      let free : Prop := (x.sign.queue.map fun g => g.recs.length).sum ≤ 2
      let idle : Prop := ∀ g ∈ x.sign.queue, ∀ r ∈ g.recs, r.sent = true
      (¬ok → answered u .malformed) ∧
      (ok → ¬free → answered u .full) ∧
      (ok → free → x.sign.credit = 0 →
        (idle → answered (given { x.sign with
          queue := x.sign.queue ++ [⟨0, [⟨.text p, false⟩]⟩], stall := some u.store.work.signStall, reported := false }) .ok) ∧
        (¬idle → answered (given { x.sign with queue := x.sign.queue ++ [⟨0, [⟨.text p, false⟩]⟩] }) .ok)) ∧
      (ok → free → 1 ≤ x.sign.credit → x.sign.credit ≤ 8 → ¬idle → ∃ t,
        exec (.ready l (BitVec.ofNat 8 x.sign.credit)) (given { x.sign with
          queue := x.sign.queue ++ [⟨0, [⟨.text p, false⟩]⟩] }) = .next t ∧ answered t .ok) ∧
      (ok → free → 1 ≤ x.sign.credit → idle → answered (given { x.sign with
        credit := x.sign.credit - 1, stall := none, reported := false
        out := x.sign.out ++ [encodeFrame 0 2 ([0, 0, BitVec.ofNat 8 (l.ctorIdx + 1), 1, 1, 5, 0, 0, 0, 0, 0] ++
          textField p)] }) .ok)

/-- The group of a visit (R131): for ADMIT a GO_TO_STOP for each bring-in move, then for each pick move; for INSPECT the bay
or the holding area, then SEE_CLERK with the deciding reason's code; for TURN_AWAY TURN_AROUND with that code; for ADMIT and
TURN_AWAY the SEE_CLERK of the oldest LOGGED entry of the visit; the codes of R130. Handed over (R40), it joins behind what is
left of the queue once whole groups have gone from the front, as few as will do, while one of another visit stands there or
the six places do not suffice; each record gone unsent is counted (R134), and the stall watch starts (R139). The model's
choice: a group that bears the visit's number stays, also where an earlier visit joined it (log 38). -/
def Obligations.GroupsAreComposed : Prop :=
  ∀ (s : State) (l : LaneNo) (v : Visit) (d : Verdict), s.visit l = some v → v.verdict = some d →
    let x := s.lane l
    let kinds : List Nat := [8, 7, 6, 16, 1, 2, 3, 4, 5, 11, 9, 10, 13, 14, 12, 15, 20, 20, 20, 20, 20]
    let values : List (Outcome × Nat) := [(.noBooking, 1), (.bookingInUse, 2), (.windowEarly, 3), (.windowLateFull, 4),
      (.notReleased, 5), (.containerMismatch, 6), (.idConflict, 7), (.idUnreadable, 8), (.sealMismatch, 9),
      (.sealUnexpected, 10), (.sealMissing, 11), (.severe, 12), (.surveyMissing, 13), (.watchHit, 15), (.fail, 17)]
    let moves := ((v.claimed.bind s.book.find).map Booking.moves).getD []
    let stop (m : Move) : DirRec := ⟨.goToStop m.block m.row, false⟩
    let clerk : List DirRec :=
      match s.exc.entries.find? fun e => e.visit == some v.number && e.state == .logged with
      | none => []
      | some e => [⟨.seeClerk (kinds.getD e.kind.ctorIdx 0), false⟩]
    ∀ code : Nat, (d = .admitIn ∨ v.reason = some .forced ∧ code = 18 ∨ v.reason = some .noClaim ∧ code = 19 ∨
        ∃ c o, v.reason = some (.check c o) ∧ values.lookup o = some code) →
    let recs : List DirRec := match d with
      | .admitIn => (moves.filter fun m => m.kind.bringIn).map stop ++ (moves.filter fun m => !m.kind.bringIn).map stop ++ clerk
      | .inspect => [⟨match v.bay with | some b => .goToBay b | none => .goToHolding, false⟩, ⟨.seeClerk code, false⟩]
      | .turnAway => ⟨.turnAround code, false⟩ :: clerk
    let q := x.sign.queue
    let stays (gs : List Group) : Prop :=
      (∀ g ∈ gs, g.visit = 0 ∨ g.visit = v.number) ∧ (gs.map fun g => g.recs.length).sum + recs.length ≤ 6
    ∀ n ≤ q.length, (n = q.length ∨ stays (q.drop n)) → (∀ m < n, ¬stays (q.drop m)) →
      let lost := ((q.take n).flatMap fun g => g.recs.filter fun r => !r.sent).length
      let joined : State := s.setLane l { x with
        visit := some { v with handed := true }
        sign := { x.sign with
          queue := q.drop n ++ [⟨v.number, recs⟩], stall := some s.store.work.signStall, reported := false }
        counters := { x.counters with discarded := min 65535 (x.counters.discarded + lost) } }
      s.handOver l = joined.serveSign l ∧ (x.sign.credit = 0 → s.handOver l = joined)

/-- STALL_TIMER_EXPIRY (R140): the reported mark is set, and in a lane that is not CLOSED SIGN_STALLED is raised with the
number of records not sent, naming the visit whose group is not delivered, which the model tells by its number, also where an
earlier visit joined it (log 38); taken with a response other than HOLD, stored or not, it is the lane's report of a stall
(the model's reading of R140 and R41, log 22). The release of the lane (R41): met in DECIDED, it commands the raise. -/
def Obligations.StallsAreReported : Prop :=
  ∀ (s : State) (l : LaneNo),
    let x := s.lane l
    let told : State := s.setLane l { x with sign := { x.sign with stall := none, reported := true } }
    (s.power = true →
      (x.sign.stall = none → exec (.stallTimerExpiry l) s = .next s) ∧
      (x.sign.stall ≠ none → x.state = .closed → exec (.stallTimerExpiry l) s = .next told) ∧
      (x.sign.stall ≠ none → x.state ≠ .closed →
        let unsent := (x.sign.queue.map fun g => (g.recs.filter fun r => !r.sent).length).sum
        let stands (v : Visit) : Bool := x.sign.queue.any fun g => g.visit == v.number && g.recs.any fun r => !r.sent
        let raised (n : Option Nat) : State × Answer := told.raiseExc ⟨.signStalled, some l, n, none, unsent, .inspect⟩
        ((∀ v, x.visit = some v → stands v = false) → exec (.stallTimerExpiry l) s = .next (raised none).1) ∧
        ∀ v, x.visit = some v → stands v = true →
          let r := raised (some v.number)
          exec (.stallTimerExpiry l) s = .next
            (if r.2 = .openHold ∨ r.2 = .notStored .hold then r.1
            else (r.1.modLane l fun y => { y with
              visit := y.visit.map fun w => { w with stallReleased := true } }).testRelease l))) ∧
    ∀ v, x.visit = some v →
      let met : Prop := (v.delivered = true ∨ v.stallReleased = true) ∧ v.bayStep ≠ .pending
      (x.state ≠ .decided → s.testRelease l = s) ∧
      (x.state = .decided → ¬met → v.raiseCommanded = false → s.testRelease l = s) ∧
      (x.state = .decided → met → v.verdict ≠ none → v.raiseCommanded = false →
        x.barrier = ⟨.down, none, false, false, none⟩ → s.input l .upSense = false →
        s.testRelease l = s.setLane l { x with
          barrier := ⟨.raising, none, false, false, some s.store.work.raiseTime⟩
          visit := some { v with raiseCommanded := true } })

/-! ### Exceptions (spec/10) -/

/-- Raising an exception (R156, R157): SILENT stores nothing; else the entry is stored with its EXCEPTION notice, LOGGED under
NOTE, OPEN under RETRY and HOLD, RESOLVED as OVERRIDDEN on an overridden check, and a hold puts its lane into TROUBLE (R44); a
full table gives up its oldest RESOLVED entry, or its oldest LOGGED one; a table full of OPEN entries, or exhausted
numbers, lose the exception. -/
def Obligations.ExceptionsAreRaised : Prop :=
  (∀ (s : State) (r : Raise),
    let w := s.store.work
    let resp : Response :=
      if r.kind = .watchHit then if r.action = .hold then .hold else .note
      else if r.kind = .inspectionFull then .hold
      else if r.kind = .settingsRestored then .note
      else if w.response r.kind = .retry ∧ w.limit r.kind = 0 then .hold
      else w.response r.kind
    let overridden : Prop := ∃ l, r.lane = some l ∧ ∃ v, s.visit l = some v ∧ r.visit = some v.number ∧
      ∃ c, checkOf r.kind r.pos = some c ∧ (v.checks.get c).override ≠ none
    let waits : Bool := r.lane.any fun l => (s.lane l).state == .trouble
    let entry (st : EntryState) (o : Option Resolution) (left : Option Nat) : Entry :=
      ⟨s.exc.next, r.kind, r.lane, r.visit, r.pos, r.detail, s.clock.minute, resp, 0, st, o, left, false⟩
    let stored (es : List Entry) (full : Bool) (e : Entry) : State :=
      { s with exc := { s.exc with entries := es ++ [e], next := s.exc.next + 1, full := full } }.queueNotice
        ⟨.exception, entryFields e ++ [0]⟩
    let held (t : State) : State := match r.lane with | some l => t.enterTrouble l | none => t
    let taken (es : List Entry) (full : Bool) : Prop :=
      (overridden → s.raiseExc r = (stored es full (entry .resolved (some .overridden) none), .overridden)) ∧
      (¬overridden →
        (resp = .note → s.raiseExc r = (stored es full (entry .logged none none), .logged)) ∧
        (resp = .retry → s.raiseExc r =
          (stored es full (entry .opened none (if waits then none else some w.retryInterval)), .openRetry)) ∧
        (resp = .hold → s.raiseExc r = (held (stored es full (entry .opened none none)), .openHold)))
    let lost : State := { s with exc := { s.exc with lost := min 65535 (s.exc.lost + 1), full := true } }
    let first (st : EntryState) : Option Entry := s.exc.entries.find? fun e => e.state == st
    let without (e : Entry) : List Entry := s.exc.entries.filter fun d => d.number ≠ e.number
    (resp = .silent → s.raiseExc r = (s, .silent)) ∧
    (resp ≠ .silent → s.exc.next ≤ 65535 →
      (s.exc.entries.length < 32 → taken s.exc.entries s.exc.full) ∧
      (32 ≤ s.exc.entries.length → ∀ e, first .resolved = some e → taken (without e) false) ∧
      (32 ≤ s.exc.entries.length → first .resolved = none → ∀ e, first .logged = some e → taken (without e) false)) ∧
    (resp ≠ .silent → (65535 < s.exc.next ∨
        32 ≤ s.exc.entries.length ∧ first .resolved = none ∧ first .logged = none) →
      (overridden ∨ r.lane = none ∨ resp = .note ∨ resp = .retry ∧ r.kind ≠ .barrierFault →
        s.raiseExc r = (lost, .notStored resp)) ∧
      (¬overridden → ∀ l, r.lane = some l → resp = .hold ∨ resp = .retry ∧ r.kind = .barrierFault →
        s.raiseExc r = (State.enterTrouble
          { lost with exc := { lost.exc with unrecorded := s.exc.unrecorded.set l true } } l, .notStored resp)))) ∧
  ∀ (s : State) (l : LaneNo),
    let x := s.lane l
    let t := s.enterTrouble l
    let stopped (v : Visit) : Visit := { v with
      matchState := if v.matchState = .looking then .waiting else v.matchState
      idSettle := none, lookup := none, abandon := none, sealWait := none, surveyWait := none }
    (x.state = .closed ∨ x.state = .trouble → t = s) ∧
    (x.state ≠ .closed → x.state ≠ .trouble →
      (t.lane l).state = .trouble ∧ (t.lane l).interrupted = some x.state ∧ (t.lane l).lamp = .red ∧
      (t.lane l).visit = x.visit.map stopped ∧ (t.lane l).barrier = x.barrier ∧ (t.lane l).sign = x.sign ∧
      (t.lane l).counters = x.counters ∧ t.book = s.book ∧
      t.exc.entries = s.exc.entries.map fun e => if e.lane = some l then { e with left := none } else e)

/-- RETRY_TIMER_EXPIRY (R159) and RETRY_AGAIN (R164). The retry step of ID_UNREADABLE (R77) in a lane that gathers reads: a
filled position is reported cleared; the first call asks for a new read; a later call is a failure, which at the retry limit
is escalated to a hold (R160). That of BARRIER_FAULT (R64) attempts the raise if it is pending and the verdict is formed, else
the lower, and does nothing out of FAULT; an attempt that finds BARRIER UP SENSE active clears the entry. That of NO_BOOKING
(R35) sends the LOOKUP again with match state WAITING and does nothing with LOOKING, CLAIMED and, the model's choice of log
12, FAILED. Those of SEAL_MISSING (R96) and SURVEY_MISSING (R112), for an EXTENDED part: what has come clears the entry and
closes the part; else a failure, with a new REREAD, or at the retry limit a hold with the part closed as MISSING or
UNSURVEYED; a part no longer EXTENDED: nothing. RETRY_AGAIN puts a MISSING seal part back to EXTENDED, PENDING, with a REREAD;
the match state FAILED to WAITING, the visit's search counting as one under RETRY (log 12); a barrier in FAULT on to its next
step, one out of FAULT cleared; and where it ends the lane's last hold the lane returns from TROUBLE (R158, R46). It finds
SURVEY_MISSING cleared in every part that holds a survey, one CLOSED keeping its outcome (the model's choice of log 41). -/
def Obligations.RetriesAreCalled : Prop :=
  (∀ (s : State) (n : Nat), s.power = true → Bounds s →
    let calls := exec (.retryTimerExpiry n) s
    ((∀ e, s.entry n = some e → ¬(e.state = .opened ∧ e.response = .retry ∧ e.left ≠ none)) → calls = .next s) ∧
    ∀ e, s.entry n = some e → e.state = .opened → e.response = .retry → e.left ≠ none → ∀ l, e.lane = some l →
      let x := s.lane l
      let w := s.store.work
      let became (f : Entry → Entry) : State := { s with exc := { s.exc with
        entries := s.exc.entries.map fun d => if d.number = n then f d else d } }
      (e.kind = .barrierFault → x.state ≠ .trouble → x.state ≠ .checking →
        let b := x.barrier
        let again : State := became fun d => { d with left := some w.retryInterval }
        let formed : Prop := ∃ v, x.visit = some v ∧ v.verdict ≠ none
        (b.state ≠ .fault → calls = .next again) ∧
        (b.state = .fault → b.pending = some .raise → formed →
          (s.input l .upSense = false → calls = .next (again.setLane l { x with
            barrier := ⟨.raising, none, b.faultMark, b.exitHold, some w.raiseTime⟩ })) ∧
          (s.input l .upSense = true → b.faultMark = true → x.state = .decided →
            (∀ d ∈ s.exc.entries, d.state = .opened → d.kind = .barrierFault → d.lane = some l → d.number = n) →
            ∃ t, calls = .next t ∧ (t.lane l).barrier = ⟨.up, none, false, b.exitHold, none⟩ ∧
              (∀ v, x.visit = some v → (t.lane l).state = if v.raiseCommanded then .exiting else .decided) ∧
              ∀ d ∈ t.exc.entries, d.number = n → d.state = .resolved ∧ d.outcome = some .cleared)) ∧
        (b.state = .fault → b.pending ≠ some .raise ∨ ¬formed → s.input l .downSense = false → calls = .next
          (again.setLane l { x with barrier := ⟨.lowering, none, b.faultMark, false, some w.lowerTime⟩ }))) ∧
      (e.kind = .idUnreadable → x.state = .arriving ∨ x.state = .awaitingHost → ∀ p, e.pos = some p →
        ∀ v, x.visit = some v →
        let ask (t : State) : State := (t.queueNotice ⟨.reread, [0, BitVec.ofNat 8 (l.ctorIdx + 1)] ++ u16 v.number ++
          [BitVec.ofNat 8 p.ctorIdx]⟩).setLane l { x with visit := some (v.setPos p { v.pos p with misreads := 0 }) }
        let failed : Entry := { e with retries := min 7 (e.retries + 1), response := .hold, left := none }
        ((v.pos p).cid ≠ none → calls = .next
          ((became fun d => { d with state := .resolved, outcome := some .cleared, left := none }).queueNotice
            ⟨.autoCleared, u16 e.number ++ [0] ++ [1, BitVec.ofNat 8 (l.ctorIdx + 1)] ++ optField u16 e.visit ++
              [1, BitVec.ofNat 8 p.ctorIdx]⟩)) ∧
        ((v.pos p).cid = none → e.called = false → calls = .next
          (ask (became fun d => { d with called := true, left := some w.retryInterval }))) ∧
        ((v.pos p).cid = none → e.called = true → e.retries + 1 < w.limit .idUnreadable → e.retries < 7 → calls = .next
          (ask (became fun d => { d with retries := e.retries + 1, left := some w.retryInterval }))) ∧
        ((v.pos p).cid = none → e.called = true → w.limit .idUnreadable ≤ min 7 (e.retries + 1) → calls = .next
          (((became fun _ => failed).queueNotice ⟨.exception, entryFields failed ++ [1]⟩).enterTrouble l))) ∧
      (e.visit = x.visit.map Visit.number → ∀ v, x.visit = some v →
        let again : State := became fun d => { d with left := some w.retryInterval }
        let count := min 7 (e.retries + 1)
        let counted : State := became fun d => { d with retries := count, left := some w.retryInterval }
        let lane : List Byte := [BitVec.ofNat 8 (l.ctorIdx + 1)]
        let cleared (t : State) : Prop := calls = .next t ∧
          ∀ d ∈ t.exc.entries, d.number = n → d.state = .resolved ∧ d.outcome = some .cleared
        let escalated (t : State) : Prop := calls = .next t ∧ (t.lane l).state = .trouble ∧
          { e with retries := count, response := .hold, left := none } ∈ t.exc.entries
        (e.kind = .noBooking → e.pos = none → x.state = .awaitingHost →
          (v.matchState = .waiting → calls = .next ((again.queueNotice ⟨.lookup, lane ++ u16 v.number ++
              optField textField v.plate ++ optField textField v.front.cid ++ optField textField v.rear.cid ++
              optField u32 v.keyed ++ optField u32 v.refused⟩).setLane l
            { x with visit := some { v with matchState := .looking, lookup := some w.lookup } })) ∧
          (v.matchState ≠ .waiting → calls = .next again)) ∧
        ∀ p, e.pos = some p → x.state = .checking →
          let cid (m : Move) : List Byte := textField (m.cid.getD [])
          (e.kind = .sealMissing → (v.pos p).sealPart.entry = some n → (v.pos p.other).sealPart.entry ≠ some n →
            ∀ k b m, (v.pos p).sealPart.move = some (k, b) → moveAt (s.claimedMoves l) k = some m →
            let z := (v.pos p).sealPart
            let missing := m.seals.filter fun c => !(z.seen.any fun y => y.text == c)
            (z.phase ≠ .extended → calls = .next again) ∧
            (z.phase = .extended → missing = [] → ∃ t, cleared t ∧
              (t.visit l).map (fun y => ((y.pos p).sealPart.phase, (y.pos p).sealPart.outcome)) =
                some (.closed, if z.final then z.outcome else sealOutcome m z.seen .closed)) ∧
            (z.phase = .extended → missing ≠ [] → count < w.limit .sealMissing → calls = .next (counted.queueNotice
              ⟨.reread, [1] ++ lane ++ u16 v.number ++ [BitVec.ofNat 8 p.ctorIdx] ++ cid m ++ listField textField missing⟩)) ∧
            (z.phase = .extended → missing ≠ [] → w.limit .sealMissing ≤ count → ∃ t, escalated t ∧
              (t.visit l).map (fun y => ((y.pos p).sealPart.phase, (y.pos p).sealPart.outcome)) =
                some (.closed, .missing))) ∧
          (e.kind = .surveyMissing → (v.pos p).damage.entry = some n → (v.pos p.other).damage.entry ≠ some n →
            ∀ k b m, (v.pos p).sealPart.move = some (k, b) → moveAt (s.claimedMoves l) k = some m →
            let z := (v.pos p).damage
            (z.phase ≠ .extended → calls = .next again) ∧
            (z.phase = .extended → z.graded ≠ none ∨ z.held ≠ none → ∃ t, cleared t ∧
              (t.visit l).map (fun y => ((y.pos p).damage.phase, (y.pos p).damage.outcome)) = some (.closed, z.outcome)) ∧
            (z.phase = .extended → z.graded = none → z.held = none → count < w.limit .surveyMissing →
              calls = .next (counted.queueNotice
                ⟨.reread, [2] ++ lane ++ u16 v.number ++ [BitVec.ofNat 8 p.ctorIdx] ++ cid m⟩)) ∧
            (z.phase = .extended → z.graded = none → z.held = none → w.limit .surveyMissing ≤ count → ∃ t, escalated t ∧
              (t.visit l).map (fun y => ((y.pos p).damage.phase, (y.pos p).damage.outcome)) =
                some (.closed, .unsurveyed))))) ∧
  ∀ (s u : State) (tag : Byte) (body : List Byte) (n : Nat), Asked s 0x20 tag body u → readAll readU16 body = some n →
    let answered (t : State) (st : Status) : Prop := Answers (.retryAgain tag body) s 0x20 tag t st []
    (u.entry n = none → answered u .notFound) ∧
    ∀ e, u.entry n = some e →
      let retrying : Prop := e.kind = .idUnreadable ∨ e.kind = .noBooking ∨ e.kind = .sealMissing ∨
        e.kind = .surveyMissing ∨ e.kind = .barrierFault
      let undecided : Prop := ∃ l, e.lane = some l ∧ ∃ v, u.visit l = some v ∧ e.visit = some v.number ∧ v.verdict = none
      (¬retrying ∨ e.state ≠ .opened ∨ e.kind ≠ .barrierFault ∧ ¬undecided → answered u .wrongState) ∧
      (e.kind = .idUnreadable → e.state = .opened → undecided → Bounds u → ∀ l p, e.lane = some l → e.pos = some p →
        (u.lane l).state = .arriving ∨ (u.lane l).state = .awaitingHost → (u.posRec l p).cid = none →
        answered (State.modPos { u with exc := { u.exc with entries := u.exc.entries.map fun d =>
          if d.number = n then { d with
            retries := 0, response := .retry, left := some u.store.work.retryInterval, called := false } else d } } l p
          fun r => { r with misreads := 0 }) .ok) ∧
      (e.kind = .sealMissing → e.state = .opened → undecided → Bounds u → ∀ l v p k b m, e.lane = some l → u.visit l = some v →
        (u.lane l).state = .checking ∨ (u.lane l).state = .trouble ∧ (u.lane l).interrupted = some .checking →
        (v.pos p).sealPart.entry = some n → (v.pos p.other).sealPart.entry ≠ some n → (v.pos p).sealPart.move = some (k, b) →
        moveAt (u.claimedMoves l) k = some m → (∀ c ∈ m.seals, ∃ y ∈ (v.pos p).sealPart.seen, y.text = c) →
        ∃ t, answered t .ok ∧ (t.visit l).map (fun y => (y.pos p).sealPart.phase) = some .closed ∧
          ∀ d ∈ t.exc.entries, d.number = n → d.state = .resolved ∧ d.outcome = some .cleared) ∧
      (e.kind = .surveyMissing → e.state = .opened → undecided → Bounds u → ∀ l v p, e.lane = some l → u.visit l = some v →
        (u.lane l).state = .checking ∨ (u.lane l).state = .trouble ∧ (u.lane l).interrupted = some .checking →
        (v.pos p).damage.entry = some n → (v.pos p.other).damage.entry ≠ some n →
        let z := (v.pos p).damage
        (z.graded ≠ none ∨ z.held ≠ none → ∃ t, answered t .ok ∧
          (t.visit l).map (fun y => ((y.pos p).damage.phase, (y.pos p).damage.outcome)) =
            some (if z.phase = .extended then .closed else z.phase, z.outcome) ∧
          ∀ d ∈ t.exc.entries, d.number = n → d.state = .resolved ∧ d.outcome = some .cleared) ∧
        (z.graded = none → z.held = none → z.phase = .closed → z.outcome = .unsurveyed → ∃ t, answered t .ok ∧
          (t.visit l).map (fun y => ((y.pos p).damage.phase, (y.pos p).damage.outcome)) = some (.extended, .pending) ∧
          ∃ d ∈ t.exc.entries, d.number = n ∧ d.state = .opened ∧ d.response = .retry ∧ d.retries = 0)) ∧
      (e.kind = .sealMissing → e.state = .opened → Bounds u → ∀ l v p k b m, e.lane = some l → e.pos ≠ none → u.visit l = some v →
        e.visit = some v.number → v.verdict = none →
        (u.lane l).state = .checking ∨ (u.lane l).state = .trouble ∧ (u.lane l).interrupted = some .checking →
        (v.pos p).sealPart.entry = some n → (v.pos p.other).sealPart.entry ≠ some n → (v.pos p).sealPart.move = some (k, b) →
        moveAt (u.claimedMoves l) k = some m → m.kind = .deliverFull →
        let z := (v.pos p).sealPart
        let missing := m.seals.filter fun c => !(z.seen.any fun y => y.text == c)
        let name : CheckName := match p with | .front => .sealFront | .rear => .sealRear
        let check := v.checks.get name
        missing ≠ [] → (∀ y ∈ z.seen, y.text ∈ m.seals) → z.phase = .closed → z.outcome = .missing → ∃ t, answered t .ok ∧
          (t.visit l).map (fun y => ((y.pos p).sealPart.phase, (y.pos p).sealPart.outcome)) = some (.extended, .pending) ∧
          (check.override = none → (t.visit l).map (fun y => ((y.checks.get name).outcome, (y.checks.get name).changed)) =
            some (.pending, check.changed || check.outcome != .pending)) ∧
          (∃ d ∈ t.exc.entries, d.number = n ∧ d.state = .opened ∧ d.response = .retry ∧ d.retries = 0) ∧
          (u.store.work.mask .reread = true → u.link.noticeCount < 32 → .notice ⟨.reread, [1, BitVec.ofNat 8 (l.ctorIdx + 1)] ++
            u16 v.number ++ [BitVec.ofNat 8 p.ctorIdx] ++ textField (m.cid.getD []) ++ listField textField missing⟩ ∈
              t.link.outbox)) ∧
      (e.state = .opened → Bounds u → ∀ l, e.lane = some l →
        let x := u.lane l
        let renewed (left : Option Nat) : State := { u with exc := { u.exc with entries := u.exc.entries.map fun d =>
          if d.number = n then { d with retries := 0, response := .retry, left := left } else d } }
        let held : Prop := u.exc.unrecorded.get l = true ∨
          ∃ d ∈ u.exc.entries, d.number ≠ n ∧ d.state = .opened ∧ d.response = .hold ∧ d.lane = some l
        let ends (f : State → State) : Prop :=
          (x.state = .trouble → held → answered (f (renewed none)) .ok) ∧
          (x.state = .trouble → ¬held → ∃ t, answered t .ok ∧ Returns (f (renewed none)) l t) ∧
          (x.state ≠ .trouble → x.state ≠ .checking → answered (f (renewed (some u.store.work.retryInterval))) .ok)
        (e.kind = .noBooking → ∀ v, u.visit l = some v → e.visit = some v.number → v.verdict = none →
          ends fun t => t.setLane l { x with visit := some { v with
            matchState := if v.matchState = .failed then .waiting else v.matchState, searchRetried := true } }) ∧
        (e.kind = .barrierFault → x.barrier.state = .fault → ends fun t => t) ∧
        (e.kind = .barrierFault → x.barrier.state ≠ .fault → x.state ≠ .trouble → x.state ≠ .checking →
          answered ((State.queueNotice { u with exc := { u.exc with entries := u.exc.entries.map fun d => if d.number = n then
              { d with retries := 0, response := .retry, left := none, state := .resolved, outcome := some .cleared } else d } }
            ⟨.autoCleared, u16 n ++ u8 e.kind.ctorIdx ++ [1, BitVec.ofNat 8 (l.ctorIdx + 1)] ++ optField u16 e.visit ++
              optField posField e.pos⟩).setLane l { x with barrier := { x.barrier with faultMark := false } }) .ok)) ∧
      (retrying → e.state = .opened → e.kind = .barrierFault ∨ undecided → Bounds u → ∃ t, answered t .ok ∧
        ∀ d ∈ t.exc.entries, d.number = n → d.state = .opened ∨ d.state = .resolved)

/-- RESOLVE (R162) and RESOLVE_LANE (R163): their tests; the entry is RESOLVED with the outcome given; WAIVE adds the waiver
and TURN_AWAY the mark while the visit has no verdict (R120); RESOLVE_LANE leaves none of the lane's OPEN entries OPEN: it
makes them RESOLVED with outcome UPHOLD and tells their number. The end of the last hold returns the lane from TROUBLE into
its interrupted state (R158, and R46 as `Returns` writes its table), for entries whose kinds act on no barrier, stall watch or
bay step and for which a WAIVE changes no check. -/
def Obligations.EntriesAreResolved : Prop :=
  ∀ (s u : State) (tag : Byte) (body : List Byte), Bounds u →
    let plain (e : Entry) : Prop := e.kind ≠ .inspectionFull ∧ e.kind ≠ .signStalled ∧ e.kind ≠ .barrierFault
    (∀ n o, Asked s 0x1E tag body u → readAll readResolve body = some (n, o) →
      let answered (t : State) (st : Status) : Prop := Answers (.resolve tag body) s 0x1E tag t st []
      let given : Prop := o = .waive ∨ o = .uphold ∨ o = .turnAway
      let resolved : List Entry := u.exc.entries.map fun d =>
        if d.number = n then { d with state := .resolved, outcome := some o, left := none } else d
      (¬given → answered u .malformed) ∧
      (given → u.entry n = none → answered u .notFound) ∧
      (given → ∀ e, u.entry n = some e →
        (e.state = .resolved → answered u .wrongState) ∧
        (e.state ≠ .resolved →
          (e.lane = none → answered { u with exc := { u.exc with entries := resolved } } .ok) ∧
          ∀ l, e.lane = some l → ∃ t, answered t .ok ∧
            (∀ d ∈ t.exc.entries, d.number = n → d.state = .resolved ∧ d.outcome = some o ∧ d.left = none) ∧
            (∀ v, u.visit l = some v → e.visit = some v.number → u.takesOverride l = true → e.kind ≠ .inspectionFull →
              (o = .turnAway → (t.visit l).map Visit.turnAwayMark = some true) ∧
              (o = .waive → ∀ c, checkOf e.kind e.pos = some c → e.kind ≠ .watchHit →
                (t.visit l).map (fun w => (w.checks.get c).waivers.contains (.kind e.kind)) = some true)) ∧
            (e.state = .opened → e.response = .hold → plain e → (u.lane l).state = .trouble → u.exc.unrecorded.get l = false →
              (∀ d ∈ u.exc.entries, d.number ≠ n → ¬(d.state = .opened ∧ d.response = .hold ∧ d.lane = some l)) →
              o = .uphold ∨ o = .turnAway ∨ checkOf e.kind e.pos = none →
              let marked (v : Visit) : Visit :=
                if o = .turnAway ∧ e.visit = some v.number ∧ v.verdict = none then { v with turnAwayMark := true } else v
              Returns (State.setLane { u with exc := { u.exc with entries := resolved } } l
                { u.lane l with visit := (u.lane l).visit.map marked }) l t)))) ∧
    ∀ n, Asked s 0x1F tag body u → readAll readU8 body = some n →
      let answered (t : State) (st : Status) (d : List Byte) : Prop := Answers (.resolveLane tag body) s 0x1F tag t st d
      (laneOf n = none → answered u .range []) ∧
      ∀ l, laneOf n = some l → ∃ (t : State) (d : List Byte), answered t .ok d ∧
        (∀ e ∈ u.exc.entries, e.lane = some l → e.state = .opened → ∀ c ∈ t.exc.entries, c.number = e.number →
          c.state = .resolved) ∧
        (let x := u.lane l
         let ours (e : Entry) : Prop := e.lane = some l ∧ e.state = .opened
         let quiet : Prop := (x.barrier.state ≠ .fault ∨ x.barrier.faultMark = true) ∧ x.sign.reported = false ∧
           ∀ v, x.visit = some v → v.verdict ≠ some .inspect ∨ v.bayStep ≠ .pending
         let upheld : State := { u with exc := { u.exc with
           unrecorded := u.exc.unrecorded.set l false
           entries := u.exc.entries.map fun e =>
             if ours e then { e with state := .resolved, outcome := some .uphold, left := none } else e } }
         (∀ e ∈ u.exc.entries, ours e → plain e ∧ (e.response = .hold ∨ e.kind = .idUnreadable)) →
         u.exc.unrecorded.get l = false ∨ quiet →
           d = u8 (u.exc.entries.filter fun e => decide (ours e)).length ∧
           (∀ e ∈ u.exc.entries, ours e → ∀ c ∈ t.exc.entries, c.number = e.number → c.outcome = some .uphold) ∧
           (x.state = .trouble → Returns upheld l t) ∧ (x.state ≠ .trouble → x.state ≠ .checking → t = upheld)) ∧
        ((∀ e ∈ u.exc.entries, e.lane = some l → e.state ≠ .opened) → d = [0]) ∧
        ((∀ e ∈ u.exc.entries, e.lane = some l → e.state ≠ .opened) → u.exc.unrecorded.get l = false →
          (u.lane l).state ≠ .trouble → (u.lane l).state ≠ .checking → t = u)

/-- CLEAR_RESOLVED (R165): every RESOLVED entry leaves the table, the others keep their order, the reply tells the number; the
full flag is cleared if any entry was removed, and an empty table begins its numbering anew. -/
def Obligations.ResolvedEntriesAreCleared : Prop :=
  ∀ (s u : State) (tag : Byte), Asked s 0x21 tag [] u →
    let gone := u.exc.entries.filter fun e => e.state == .resolved
    let kept := u.exc.entries.filter fun e => e.state != .resolved
    Answers (.clearResolved tag []) s 0x21 tag { u with exc := { u.exc with
      entries := kept
      full := if gone = [] then u.exc.full else false
      next := if kept = [] then 1 else u.exc.next } } .ok [BitVec.ofNat 8 gone.length]

/-! ### Inspection bays (spec/09) -/

/-- BAY_RELEASE (R148) and WAIT_REMOVE (R149): their tests; a bay freed goes to the head of the Waiting List (R147), with a
BAY_ASSIGNED notice, or stays FREE; the entry nearest the head that carries the visit leaves the list; the lane that still
holds the visit of that number is told (log 38). -/
def Obligations.BaysAreKept : Prop :=
  ∀ (s u : State) (tag : Byte) (body : List Byte),
    let told (t : State) (l : LaneNo) (n : Nat) (f : Visit → Visit) : State :=
      t.setLane l { t.lane l with visit := (t.visit l).map fun v => if v.number = n then f v else v }
    (∀ b given, Asked s 0x1B tag body u → readAll (readPair readU8 (readOpt readU16)) body = some (b, given) →
      let answered (t : State) (st : Status) (d : List Byte) : Prop := Answers (.bayRelease tag body) s 0x1B tag t st d
      (b = 0 ∨ u.pool.bays.length < b ∨ given = some 0 → answered u .range []) ∧
      (1 ≤ b → b ≤ u.pool.bays.length → given ≠ some 0 →
        (u.pool.bays[b - 1]? = some none → answered u .wrongState []) ∧
        ∀ h, u.pool.bays[b - 1]? = some (some h) →
          (∀ n, given = some n → n ≠ h.visit → answered u .wrongState []) ∧
          (given = none ∨ given = some h.visit →
            (u.pool.waiting = [] → answered
              (told { u with pool := ⟨u.pool.bays.set (b - 1) none, []⟩ } h.lane h.visit fun v => { v with bay := none }) .ok
                (u16 h.visit ++ [BitVec.ofNat 8 (h.lane.ctorIdx + 1)])) ∧
            (∀ k rest, u.pool.waiting = k :: rest → (∀ i < b - 1, ∃ j, u.pool.bays[i]? = some (some j)) →
              (∀ i, b ≤ i → i < u.pool.bays.length → ∃ j, u.pool.bays[i]? = some (some j)) → answered
              (told ((told { u with pool := ⟨u.pool.bays.set (b - 1) (some { k with minute := u.clock.minute }), rest⟩ }
                  h.lane h.visit fun v => { v with bay := none }).queueNotice
                ⟨.bayAssigned, [BitVec.ofNat 8 b] ++ u16 k.visit ++ [BitVec.ofNat 8 (k.lane.ctorIdx + 1)] ++ u32 k.booking ++
                  listField textField k.cids⟩) k.lane k.visit fun v => { v with bay := some b, waiting := false }) .ok
                (u16 h.visit ++ [BitVec.ofNat 8 (h.lane.ctorIdx + 1)]))))) ∧
    ∀ n, Asked s 0x1C tag body u → readAll readU16 body = some n →
      let answered (t : State) (st : Status) (d : List Byte) : Prop := Answers (.waitRemove tag body) s 0x1C tag t st d
      (n = 0 → answered u .range []) ∧
      (n ≠ 0 → (∀ h ∈ u.pool.waiting, h.visit ≠ n) → answered u .notFound []) ∧
      (n ≠ 0 → ∀ pre h post, u.pool.waiting = pre ++ h :: post → (∀ k ∈ pre, k.visit ≠ n) → h.visit = n →
        answered (told { u with pool := ⟨u.pool.bays, pre ++ post⟩ } h.lane n fun v => { v with waiting := false }) .ok
          ([BitVec.ofNat 8 (h.lane.ctorIdx + 1)] ++ u32 h.booking))

/-- The bay request of an INSPECT verdict (R144, R145): with nobody waiting the lowest bay that is FREE, else a place at the
tail of the Waiting List, each handing the verdict over, the hold taking a number of joining above every other (log 38); with
16 waiting and no bay FREE, INSPECTION_FULL, the lane in TROUBLE with its bay step as it was. The resolution of
INSPECTION_FULL, or the clearing of the lane's unrecorded-hold flag, settles the verdict, its reason and the bay step, and the
lane hands the verdict over on its return to DECIDED (R146, R46). -/
def Obligations.BaysAreRequested : Prop :=
  (∀ (s : State) (l : LaneNo) (v : Visit), s.visit l = some v →
    let x := s.lane l
    let h : BayHold := ⟨v.number, l, v.claimed.getD 0,
      v.front.cid.toList ++ (if v.rear.spanning then [] else v.rear.cid.toList), s.clock.minute, s.pool.nextJoin⟩
    let given (p : BayPool) (bay : Option Nat) (waits : Bool) : State := { s with pool := p }.setLane l { x with
      visit := some { v with bayStep := .done, bay := bay, waiting := waits, hold := some h.join } }
    let taken : Prop := ∀ b ∈ s.pool.bays, b ≠ none
    (∀ k, some k ∈ s.pool.bays ∨ k ∈ s.pool.waiting → k.join < h.join) ∧
    (∀ pre post, s.pool.waiting = [] → s.pool.bays = pre ++ none :: post → (∀ b ∈ pre, b ≠ none) →
      s.requestBay l = (given ⟨pre ++ some h :: post, []⟩ (some (pre.length + 1)) false).handOver l) ∧
    (s.pool.waiting.length < 16 → s.pool.waiting ≠ [] ∨ taken →
      s.requestBay l = (given ⟨s.pool.bays, s.pool.waiting ++ [h]⟩ none true).handOver l) ∧
    (16 ≤ s.pool.waiting.length → taken →
      let t := s.requestBay l
      t = (s.raiseExc ⟨.inspectionFull, some l, some v.number, none, s.pool.bays.length, .inspect⟩).1 ∧ t.pool = s.pool ∧
      (x.state = .decided → (t.lane l).state = .trouble ∧ (t.lane l).interrupted = some .decided ∧
        (t.visit l).map (fun y => (y.verdict, y.bayStep, y.bay, y.waiting, y.handed)) =
          some (v.verdict, v.bayStep, v.bay, v.waiting, v.handed))) ∧
    ∃ u : State, s.enterDecided l = (if v.verdict = some .inspect then u.requestBay l else u.handOver l) ∧
      (u.lane l).state = .decided ∧ u.pool = s.pool ∧ u.book = s.book ∧ u.exc = s.exc ∧
      u.visit l = some { v with
        idSettle := none, lookup := none, abandon := none, sealWait := none, surveyWait := none
        matchState := if v.matchState = .looking then .waiting else v.matchState
        bayStep := if v.verdict = some .inspect then .pending else .notNeeded }) ∧
  ∀ (s u : State) (tag : Byte) (body : List Byte) (l : LaneNo) (v : Visit), u.visit l = some v →
    v.verdict = some .inspect → v.bayStep = .pending → v.handed = false →
    (u.lane l).state = .trouble → (u.lane l).interrupted = some .decided →
    let settled (t : State) (d : Verdict) (r : Option Reason) : Prop :=
      ((t.lane l).state = .decided ∨ (t.lane l).state = .exiting) ∧
        (t.visit l).map (fun y => (y.verdict, y.reason, y.bayStep, y.bay, y.waiting, y.handed)) =
          some (some d, r, .done, none, false, true)
    (∀ n o e, Asked s 0x1E tag body u → readAll readResolve body = some (n, o) → u.entry n = some e →
      e.kind = .inspectionFull → e.state = .opened → e.response = .hold → e.lane = some l → e.visit = some v.number →
      u.exc.unrecorded.get l = false →
      (∀ c ∈ u.exc.entries, c.number ≠ n → ¬(c.state = .opened ∧ c.response = .hold ∧ c.lane = some l)) →
      (o = .uphold → ∃ t, Answers (.resolve tag body) s 0x1E tag t .ok [] ∧ settled t .inspect v.reason) ∧
      (o = .waive → ∃ t, Answers (.resolve tag body) s 0x1E tag t .ok [] ∧ settled t .admitIn (some .forced)) ∧
      (o = .turnAway → ∃ t, Answers (.resolve tag body) s 0x1E tag t .ok [] ∧ settled t .turnAway (some .forced))) ∧
    ∀ n, Asked s 0x1F tag body u → readAll readU8 body = some n → laneOf n = some l → u.exc.unrecorded.get l = true →
      (∀ e ∈ u.exc.entries, e.lane = some l → e.state ≠ .opened) →
      ∃ t, Answers (.resolveLane tag body) s 0x1F tag t .ok [0] ∧ t.exc.unrecorded.get l = false ∧
        settled t .inspect v.reason

/-! ### Settings, gate modes, reports (spec/11) -/

/-- SET and GET (R173, R155, R107, R151): the tests in order; a numeric value is taken as the nearer end of its range, with
CLAMPED; the setting named takes the value, and no other setting changes; the rest of the part goes on as it is but for the
polarities and the bay count (for the sign capacity the model's choice, log 37). GET answers OK for each number and index that
has a place, the fixed responses HOLD of INSPECTION_FULL and NOTE of SETTINGS_RESTORED as section 10.2 gives them, the
response of WATCH_HIT and the limits of kinds without a retry step with a free value (log 8). -/
def Obligations.SettingsAreSet : Prop :=
  ∀ (s u : State) (tag : Byte) (body : List Byte),
    let tops := [(5, 48), (6, 48), (17, 5), (21, 8), (24, 21), (25, 21), (27, 12)]
    let counts := [(4, 2), (5, 2), (20, 2), (24, 4), (27, 2)]
    let ranges := [(1, 0, 255), (2, 0, 120), (3, 0, 120), (6, 0, 255), (7, 100, 36000), (8, 20, 300), (9, 20, 300),
      (10, 0, 300), (11, 50, 1200), (12, 50, 3000), (13, 50, 1200), (14, 50, 1200), (15, 1, 9), (16, 0, 255), (17, 0, 15),
      (18, 0, 1000), (19, 0, 1000), (21, 1, 8), (22, 20, 600), (23, 0, 8), (25, 0, 7), (26, 10, 600)]
    let fits (n i : Nat) : Prop :=
      if (tops.lookup n).isNone then i = 0 else 1 ≤ i ∧ i ≤ (tops.lookup n).getD 0
    let w := u.store.work
    (∀ r, Asked s 0x23 tag body u → readAll readSet body = some r →
      let n := r.number
      let answered (t : State) (st : Status) : Prop := Answers (.set tag body) s 0x23 tag t st []
      let kind := kindOf r.index
      let highest := highestAssigned u.pool.bays
      let takes (v : Nat) (st : Status) : Prop := ∃ t, answered t st ∧ t.store.work.value n r.index = v ∧
        (∀ m j, 1 ≤ m → m ≤ 27 → fits m j → ¬(m = n ∧ j = r.index) → t.store.work.value m j = w.value m j) ∧
        t.store.image = u.store.image ∧ (n ≠ 5 → n ≠ 23 → t = { u with store := { u.store with work := t.store.work } }) ∧
        (n = 23 → t.pool.bays.length = v)
      (u.store.saving ≠ none → answered u .busy) ∧
      (u.store.saving = none →
        (n = 0 ∨ 27 < n → answered u .notFound) ∧
        (1 ≤ n → n ≤ 27 → ¬fits n r.index → answered u .range) ∧
        (1 ≤ n → n ≤ 27 → fits n r.index →
          (∀ c, counts.lookup n = some c →
            (c ≤ r.value ∨ n = 24 ∧ (∀ k, kind = some k → k.fixed = true ∨
              ∀ x, responsesList[r.value]? = some x → k.allows x = false) → answered u .range) ∧
            (r.value < c → (n = 24 → ∃ k, kind = some k ∧ k.fixed = false ∧ ∃ x, responsesList[r.value]? = some x ∧
              k.allows x = true) → takes r.value .ok)) ∧
          (∀ lo hi, ranges.lookup n = some (lo, hi) →
            let v := max lo (min hi r.value)
            (n = 25 ∧ (∀ k, kind = some k → k.retrying = false) ∨ n = 18 ∧ w.severeThreshold < v ∨
              n = 19 ∧ v < w.noteThreshold → answered u .range) ∧
            (n = 23 → v < highest → answered u .wrongState) ∧
            ((n = 25 → ∃ k, kind = some k ∧ k.retrying = true) → (n = 18 → v ≤ w.severeThreshold) →
              (n = 19 → w.noteThreshold ≤ v) → (n = 23 → highest ≤ v) →
              takes v (if v = r.value then .ok else .clamped)))))) ∧
    ∀ n i, Asked s 0x24 tag body u → readAll (readPair readU8 readU8) body = some (n, i) →
      let answered (st : Status) (d : List Byte) : Prop := Answers (.get tag body) s 0x24 tag u st d
      (n = 0 ∨ 27 < n → answered .notFound []) ∧
      (1 ≤ n → n ≤ 27 → ¬fits n i → answered .range []) ∧
      (1 ≤ n → n ≤ 27 → fits n i → answered .ok (u16 (w.value n i))) ∧
      (n = 24 → i = 17 → answered .ok [0, 0]) ∧ (n = 24 → i = 21 → answered .ok [2, 0])

/-- SAVE_SETTINGS and SAVE_COMPLETE (R174, R171), LOAD_SETTINGS and DEFAULT_SETTINGS (R175): a second request during a write
is answered BUSY; the image takes the settings as they stood (left to itself within 4 tenths of a second, log 32); a bad image
refuses the load; the settings taken keep the bay of the highest number that is ASSIGNED (R151). SETTINGS_DONE tells the CRC,
which is open (log 6), before the reply and before what the new settings bring about, its mask read from them (R175, R172; log
23); a new sign capacity sends nothing (log 37). -/
def Obligations.SettingsAreStored : Prop :=
  (∀ bs : List (Option BayHold), (∀ i, highestAssigned bs ≤ i → ∀ h, bs[i]? ≠ some (some h)) ∧
    (highestAssigned bs ≠ 0 → ∃ h, bs[highestAssigned bs - 1]? = some (some h))) ∧
  (∀ (s u : State) (tag : Byte), Asked s 0x25 tag [] u →
    (u.store.saving ≠ none → Answers (.saveSettings tag []) s 0x25 tag u .busy []) ∧
    (u.store.saving = none → exec (.saveSettings tag []) s = .next { u with
      store := { u.store with saving := some ⟨u.store.work, tag, 4⟩ } })) ∧
  (∀ s : State, s.power = true →
    (s.store.saving = none → exec .saveComplete s = .next s) ∧
    ∀ j, s.store.saving = some j →
      exec .saveComplete s = .next ((State.queueNotice { s with
        store := { s.store with image := .whole j.image, saving := none } }
          ⟨.settingsDone, [0] ++ u16 j.image.crc⟩).reply j.tag 0x25 .ok (u16 j.image.crc))) ∧
  ∀ (s u : State) (tag : Byte),
    let takes (i : Instr) (kind : Byte) (w : Settings) (op : Byte) : Prop :=
      let w1 : Settings := { w with bayCount := max w.bayCount (highestAssigned u.pool.bays) }
      ∃ t, Answers i s kind tag t .ok [] ∧ t.store = { u.store with work := w1 } ∧ t.pool.bays.length = w1.bayCount ∧
        t.clock = u.clock ∧ t.holds = u.holds ∧
        (∃ ms : List Notice, t.link.outbox = (State.queueNotice { u with store := { u.store with work := w1 } }
          ⟨.settingsDone, [op] ++ u16 w1.crc⟩).link.outbox ++ ms.map OutMsg.notice) ∧
        (w.activeLow = u.store.work.activeLow → u.pool.waiting = [] → t = State.queueNotice { u with
          store := { u.store with work := w1 }
          pool := ⟨u.pool.bays.take w1.bayCount ++ List.replicate (w1.bayCount - u.pool.bays.length) none, []⟩ }
            ⟨.settingsDone, [op] ++ u16 w1.crc⟩)
    (Asked s 0x26 tag [] u →
      (u.store.saving ≠ none → Answers (.loadSettings tag []) s 0x26 tag u .busy []) ∧
      (u.store.saving = none → (∀ w, u.store.image ≠ .whole w) → Answers (.loadSettings tag []) s 0x26 tag u .wrongState []) ∧
      (u.store.saving = none → ∀ w, u.store.image = .whole w → takes (.loadSettings tag []) 0x26 w 1)) ∧
    (Asked s 0x27 tag [] u →
      (u.store.saving ≠ none → Answers (.defaultSettings tag []) s 0x27 tag u .busy []) ∧
      (u.store.saving = none → takes (.defaultSettings tag []) 0x27 .default 2))

/-- GATE_OPEN by the gate mode (R178), and GATE_SHUT (R179): every IDLE lane is CLOSED, every lane in service is marked to close,
and the gate is SHUT as soon as all lanes are CLOSED. -/
def Obligations.GateOpensAndShuts : Prop :=
  ∀ (s u : State) (tag : Byte),
    (Asked s 0x28 tag [] u →
      let answered (t : State) (st : Status) : Prop := Answers (.gateOpen tag []) s 0x28 tag t st []
      (u.gate = .opened → answered u .ok) ∧
      (u.gate = .shut → u.clock.valid = false → answered u .wrongState) ∧
      (u.gate = .shut → u.clock.valid = true → answered (State.queueNotice { u with
        gate := .opened
        lanes := u.lanes.map fun x => { x with
          sign := ⟨[], 0, none, false, x.sign.rx, x.sign.out ++ [encodeFrame 0 3 []]⟩ } } ⟨.gateState, [0, 1, 0]⟩) .ok) ∧
      (u.gate = .draining → answered (State.queueNotice { u with
        gate := .opened
        lanes := u.lanes.map fun x => { x with closePending := x.closePending && x.state == .closed } }
          ⟨.gateState, [2, 1, 0]⟩) .ok)) ∧
    (Asked s 0x29 tag [] u →
      let answered (t : State) : Prop := Answers (.gateShut tag []) s 0x29 tag t .ok []
      (u.gate ≠ .opened → answered u) ∧
      (u.gate = .opened → ∃ t, answered t ∧
        (t.gate = .shut ∨ t.gate = .draining) ∧
        (t.gate = .shut ↔ ∀ l, (u.lane l).state = .closed ∨ (u.lane l).state = .idle) ∧
        (∀ l, (t.lane l).visit = (u.lane l).visit ∧ (t.lane l).lines = (u.lane l).lines ∧
          ((u.lane l).state = .closed → t.lane l = u.lane l) ∧
          ((u.lane l).state = .idle → (t.lane l).state = .closed ∧ (t.lane l).closePending = false) ∧
          ((u.lane l).state ≠ .closed → (u.lane l).state ≠ .idle →
            t.lane l = { u.lane l with closePending := true })) ∧
        t.book = u.book ∧ t.clock = u.clock ∧ t.pool = u.pool))

/-- The reports GET_CLOCK (R16), GET_HOLDS (R82), GET_SIGN (R142), GET_BAYS (R152), GET_EXCEPTIONS (R166), GET_COUNTERS (R183)
and IDENTIFY (R184): what each tells, in the field order and sizes of log 21, the head group of GET_SIGN by its place in the
queue, the model's choice (log 48), marks as log 28 codes them, a report above 500 bytes whole (log 10), the next number of an
exhausted numbering open (log 9). None changes the part, but GET_COUNTERS with the clear mark 1, which sets every counter to
0. -/
def Obligations.ReportsAreGiven : Prop :=
  ∀ (s u : State) (tag : Byte),
    let mark (b : Bool) : List Byte := if b then [1] else [0]
    let lane (l : LaneNo) : List Byte := [BitVec.ofNat 8 (l.ctorIdx + 1)]
    (Asked s 0x08 tag [] u → Answers (.getClock tag []) s 0x08 tag u .ok
      (u16 u.clock.day ++ u16 u.clock.minute ++ u8 u.clock.second ++ mark u.clock.valid)) ∧
    (Asked s 0x2C tag [] u → Answers (.getHolds tag []) s 0x2C tag u .ok
      (u8 u.holds.length ++ u.holds.zipIdx.flatMap fun h => u8 (h.2 + 1) ++ u8 h.1.kind.ctorIdx ++ u8 h.1.pattern.length ++
        h.1.pattern ++ u8 h.1.action.ctorIdx ++ u8 h.1.reason)) ∧
    (Asked s 0x1D tag [] u →
      let hold (h : BayHold) : List Byte := u16 h.visit ++ lane h.lane ++ u32 h.booking ++ listField textField h.cids ++
        u16 h.minute
      Answers (.getBays tag []) s 0x1D tag u .ok
        (u8 u.pool.bays.length ++ (u.pool.bays.flatMap fun b => match b with | none => [0, 0] | some h => [1, 1] ++ hold h) ++
          u8 u.pool.waiting.length ++ u.pool.waiting.zipIdx.flatMap fun h => u8 (h.2 + 1) ++ hold h.1)) ∧
    (∀ body n, Asked s 0x1A tag body u → readAll readU8 body = some n →
      (laneOf n = none → Answers (.getSign tag body) s 0x1A tag u .range []) ∧
      ∀ l, laneOf n = some l →
        let x := (u.lane l).sign
        let sent (g : Group) : Bool := g.recs.all fun r => r.sent
        let head := x.queue.findIdx? fun g => !sent g
        Answers (.getSign tag body) s 0x1A tag u .ok
          (u8 x.credit ++ u16 (u.store.work.signCapacity.get l) ++ u8 (x.queue.map fun g => g.recs.length).sum ++
            u8 x.queue.length ++
            (x.queue.flatMap fun g => u16 g.visit ++ mark (g.recs.any fun r => r.sent) ++ mark (sent g) ++
              u8 g.recs.length ++ g.recs.zipIdx.flatMap fun r => u16 g.visit ++ lane l ++ u8 g.recs.length ++ u8 (r.2 + 1) ++
                recordFields r.1.dir ++ mark r.1.sent) ++
            (match head with | none => [0] | some i => [1] ++ u8 (i + 1)) ++
            (match x.stall with | none => [0] | some k => [1] ++ u16 k) ++ mark x.reported)) ∧
    (∀ body n, Asked s 0x22 tag body u → readAll readU16 body = some n →
      let count (st : EntryState) : List Byte := u8 (u.exc.entries.filter fun e => e.state == st).length
      let after := u.exc.entries.dropWhile fun e => e.number < n
      Answers (.getExceptions tag body) s 0x22 tag u .ok
        (count .opened ++ count .logged ++ count .resolved ++ u16 u.exc.lost ++ mark u.exc.full ++
          u16 (if u.exc.next ≤ 65535 then u.exc.next else Config.exhaustedNext.toNat) ++
          mark (decide (65535 < u.exc.next)) ++
          (allLanes.flatMap fun l => mark (u.exc.unrecorded.get l)) ++
          u8 (after.take 16).length ++ (after.take 16).flatMap entryFields ++ mark (decide (16 < after.length)))) ∧
    (∀ b : Byte, b = 0 ∨ b = 1 → Asked s 0x2B tag [b] u →
      let each (f : LaneCounters → Nat) : List Byte := allLanes.flatMap fun l => u16 (f (u.lane l).counters)
      Answers (.getCounters tag [b]) s 0x2B tag
        (if b = 0 then u else { u with
          lanes := u.lanes.map fun x => { x with counters := ⟨0, 0, 0, 0, 0, 0, 0, 0, 0, 0⟩ }
          link := { u.link with badFrames := 0, overflows := 0, noticesLost := 0 }
          exc := { u.exc with lost := 0 } }) .ok
        (each (·.visits) ++ each (·.admitted) ++ each (·.inspect) ++ each (·.turnedAway) ++ each (·.abandoned) ++
          each (·.misreads) ++ each (·.duplicates) ++ each (·.forcedRaw) ++ each (·.discarded) ++ each (·.reversals) ++
          u16 u.link.badFrames ++ u16 u.link.overflows ++ u16 u.link.noticesLost ++ u16 u.exc.lost)) ∧
    (Asked s 0x2D tag [] u → Answers (.identify tag []) s 0x2D tag u .ok
      [0x31, 0x6A, 0x58, 0x08, 2, 8, 0x00, 0x08, 96, 64, 32, 6, 16, 8, 32, 0x00, 0x08, 0xF4, 0x01])
end

