-- ==== Sys2Proof/Laws/State.lean ====
section
/-! SUPPORT. The small lemmas of the state's updates: for each update, what it does to each field. -/

namespace Sys2Proof.Machine

/-! ### Families -/

@[simp] theorem PerLane.get_set_same {α : Type} (p : PerLane α) (l : LaneNo) (x : α) : (p.set l x).get l = x := by
  cases l <;> rfl

theorem PerLane.get_set_other {α : Type} (p : PerLane α) {l m : LaneNo} (x : α) (h : m ≠ l) :
    (p.set l x).get m = p.get m := by
  cases l <;> cases m <;> first | rfl | exact absurd rfl h

@[simp] theorem PerLane.get_map {α β : Type} (f : α → β) (p : PerLane α) (l : LaneNo) :
    (p.map f).get l = f (p.get l) := by
  cases l <;> rfl

@[simp] theorem PerLane.get_fill {α : Type} (x : α) (l : LaneNo) : (PerLane.fill x).get l = x := by
  cases l <;> rfl

@[simp] theorem PerInput.get_set_same {α : Type} (p : PerInput α) (i : Input) (x : α) : (p.set i x).get i = x := by
  cases i <;> rfl

theorem PerInput.get_set_other {α : Type} (p : PerInput α) {i k : Input} (x : α) (h : k ≠ i) :
    (p.set i x).get k = p.get k := by
  cases i <;> cases k <;> first | rfl | exact absurd rfl h

@[simp] theorem PerLoop.get_set_same {α : Type} (p : PerLoop α) (i : Loop) (x : α) : (p.set i x).get i = x := by
  cases i <;> rfl

theorem PerLoop.get_set_other {α : Type} (p : PerLoop α) {i k : Loop} (x : α) (h : k ≠ i) :
    (p.set i x).get k = p.get k := by
  cases i <;> cases k <;> first | rfl | exact absurd rfl h

@[simp] theorem PerPanel.get_set_same {α : Type} (p : PerPanel α) (i : Panel) (x : α) : (p.set i x).get i = x := by
  cases i <;> rfl

theorem PerPanel.get_set_other {α : Type} (p : PerPanel α) {i k : Panel} (x : α) (h : k ≠ i) :
    (p.set i x).get k = p.get k := by
  cases i <;> cases k <;> first | rfl | exact absurd rfl h

@[simp] theorem Checks.get_set_same (c : Checks) (n : CheckName) (x : Check) : (c.set n x).get n = x := by
  cases n <;> rfl

theorem Checks.get_set_other (c : Checks) {n k : CheckName} (x : Check) (h : k ≠ n) : (c.set n x).get k = c.get k := by
  cases n <;> cases k <;> first | rfl | exact absurd rfl h

@[simp] theorem Visit.pos_setPos_same (v : Visit) (p : Pos) (r : PosRec) : (v.setPos p r).pos p = r := by
  cases p <;> rfl

theorem Visit.pos_setPos_other (v : Visit) {p q : Pos} (r : PosRec) (h : q ≠ p) : (v.setPos p r).pos q = v.pos q := by
  cases p <;> cases q <;> first | rfl | exact absurd rfl h

/-! ### A lane replaced or changed -/

section SetLane
variable (s : State) (l : LaneNo) (x : Lane)
@[simp] theorem State.setLane_power : (s.setLane l x).power = s.power := rfl
@[simp] theorem State.setLane_gate : (s.setLane l x).gate = s.gate := rfl
@[simp] theorem State.setLane_clock : (s.setLane l x).clock = s.clock := rfl
@[simp] theorem State.setLane_book : (s.setLane l x).book = s.book := rfl
@[simp] theorem State.setLane_nextVisit : (s.setLane l x).nextVisit = s.nextVisit := rfl
@[simp] theorem State.setLane_holds : (s.setLane l x).holds = s.holds := rfl
@[simp] theorem State.setLane_exc : (s.setLane l x).exc = s.exc := rfl
@[simp] theorem State.setLane_pool : (s.setLane l x).pool = s.pool := rfl
@[simp] theorem State.setLane_store : (s.setLane l x).store = s.store := rfl
@[simp] theorem State.setLane_link : (s.setLane l x).link = s.link := rfl
@[simp] theorem State.setLane_phase : (s.setLane l x).phase = s.phase := rfl
@[simp] theorem State.setLane_freeIndex : (s.setLane l x).freeIndex = s.freeIndex := rfl
@[simp] theorem State.setLane_pending : (s.setLane l x).pending = s.pending := rfl
@[simp] theorem State.setLane_lane : (s.setLane l x).lane l = x := PerLane.get_set_same ..
theorem State.setLane_other {m : LaneNo} (h : m ≠ l) : (s.setLane l x).lane m = s.lane m := PerLane.get_set_other _ _ h
end SetLane

section ModLane
variable (s : State) (l : LaneNo) (f : Lane → Lane)
@[simp] theorem State.modLane_power : (s.modLane l f).power = s.power := rfl
@[simp] theorem State.modLane_gate : (s.modLane l f).gate = s.gate := rfl
@[simp] theorem State.modLane_clock : (s.modLane l f).clock = s.clock := rfl
@[simp] theorem State.modLane_book : (s.modLane l f).book = s.book := rfl
@[simp] theorem State.modLane_nextVisit : (s.modLane l f).nextVisit = s.nextVisit := rfl
@[simp] theorem State.modLane_holds : (s.modLane l f).holds = s.holds := rfl
@[simp] theorem State.modLane_exc : (s.modLane l f).exc = s.exc := rfl
@[simp] theorem State.modLane_pool : (s.modLane l f).pool = s.pool := rfl
@[simp] theorem State.modLane_store : (s.modLane l f).store = s.store := rfl
@[simp] theorem State.modLane_link : (s.modLane l f).link = s.link := rfl
@[simp] theorem State.modLane_phase : (s.modLane l f).phase = s.phase := rfl
@[simp] theorem State.modLane_freeIndex : (s.modLane l f).freeIndex = s.freeIndex := rfl
@[simp] theorem State.modLane_pending : (s.modLane l f).pending = s.pending := rfl
@[simp] theorem State.modLane_lane : (s.modLane l f).lane l = f (s.lane l) := PerLane.get_set_same ..
theorem State.modLane_other {m : LaneNo} (h : m ≠ l) : (s.modLane l f).lane m = s.lane m :=
  PerLane.get_set_other _ _ h
end ModLane

section ModVisit
variable (s : State) (l : LaneNo) (f : Visit → Visit)
@[simp] theorem State.modVisit_power : (s.modVisit l f).power = s.power := rfl
@[simp] theorem State.modVisit_gate : (s.modVisit l f).gate = s.gate := rfl
@[simp] theorem State.modVisit_clock : (s.modVisit l f).clock = s.clock := rfl
@[simp] theorem State.modVisit_book : (s.modVisit l f).book = s.book := rfl
@[simp] theorem State.modVisit_nextVisit : (s.modVisit l f).nextVisit = s.nextVisit := rfl
@[simp] theorem State.modVisit_holds : (s.modVisit l f).holds = s.holds := rfl
@[simp] theorem State.modVisit_exc : (s.modVisit l f).exc = s.exc := rfl
@[simp] theorem State.modVisit_pool : (s.modVisit l f).pool = s.pool := rfl
@[simp] theorem State.modVisit_store : (s.modVisit l f).store = s.store := rfl
@[simp] theorem State.modVisit_link : (s.modVisit l f).link = s.link := rfl
@[simp] theorem State.modVisit_phase : (s.modVisit l f).phase = s.phase := rfl
@[simp] theorem State.modVisit_freeIndex : (s.modVisit l f).freeIndex = s.freeIndex := rfl
@[simp] theorem State.modVisit_pending : (s.modVisit l f).pending = s.pending := rfl
@[simp] theorem State.modVisit_lane : (s.modVisit l f).lane l = (s.lane l).modVisit f := State.modLane_lane ..
@[simp] theorem State.modVisit_visit : (s.modVisit l f).visit l = (s.visit l).map f := by
  simp [State.visit, Lane.modVisit]
theorem State.modVisit_other {m : LaneNo} (h : m ≠ l) : (s.modVisit l f).lane m = s.lane m := State.modLane_other _ _ _ h
end ModVisit

section LaneFields
variable (x : Lane) (f : Visit → Visit)
@[simp] theorem Lane.modVisit_state : (x.modVisit f).state = x.state := rfl
@[simp] theorem Lane.modVisit_interrupted : (x.modVisit f).interrupted = x.interrupted := rfl
@[simp] theorem Lane.modVisit_closePending : (x.modVisit f).closePending = x.closePending := rfl
@[simp] theorem Lane.modVisit_visit : (x.modVisit f).visit = x.visit.map f := rfl
@[simp] theorem Lane.modVisit_noted : (x.modVisit f).noted = x.noted := rfl
@[simp] theorem Lane.modVisit_lamp : (x.modVisit f).lamp = x.lamp := rfl
@[simp] theorem Lane.modVisit_lines : (x.modVisit f).lines = x.lines := rfl
@[simp] theorem Lane.modVisit_stuck : (x.modVisit f).stuck = x.stuck := rfl
@[simp] theorem Lane.modVisit_barrier : (x.modVisit f).barrier = x.barrier := rfl
@[simp] theorem Lane.modVisit_sign : (x.modVisit f).sign = x.sign := rfl
@[simp] theorem Lane.modVisit_counters : (x.modVisit f).counters = x.counters := rfl
end LaneFields

/-! ### Replies, settings, entries, the queue of commands -/

section Reply
variable (s : State) (tag kind : Byte) (st : Status) (data : List Byte)
@[simp] theorem State.reply_power : (s.reply tag kind st data).power = s.power := rfl
@[simp] theorem State.reply_gate : (s.reply tag kind st data).gate = s.gate := rfl
@[simp] theorem State.reply_clock : (s.reply tag kind st data).clock = s.clock := rfl
@[simp] theorem State.reply_book : (s.reply tag kind st data).book = s.book := rfl
@[simp] theorem State.reply_lanes : (s.reply tag kind st data).lanes = s.lanes := rfl
@[simp] theorem State.reply_nextVisit : (s.reply tag kind st data).nextVisit = s.nextVisit := rfl
@[simp] theorem State.reply_holds : (s.reply tag kind st data).holds = s.holds := rfl
@[simp] theorem State.reply_exc : (s.reply tag kind st data).exc = s.exc := rfl
@[simp] theorem State.reply_pool : (s.reply tag kind st data).pool = s.pool := rfl
@[simp] theorem State.reply_store : (s.reply tag kind st data).store = s.store := rfl
@[simp] theorem State.reply_phase : (s.reply tag kind st data).phase = s.phase := rfl
@[simp] theorem State.reply_freeIndex : (s.reply tag kind st data).freeIndex = s.freeIndex := rfl
@[simp] theorem State.reply_pending : (s.reply tag kind st data).pending = s.pending := rfl
@[simp] theorem State.reply_outbox :
    (s.reply tag kind st data).link.outbox = s.link.outbox ++ [.reply ⟨tag, replyKind kind, st, data⟩] := rfl
@[simp] theorem State.reply_rxBuffer : (s.reply tag kind st data).link.rxBuffer = s.link.rxBuffer := rfl
@[simp] theorem State.reply_rxPart : (s.reply tag kind st data).link.rxPart = s.link.rxPart := rfl
@[simp] theorem State.reply_sent : (s.reply tag kind st data).link.sent = s.link.sent := rfl
@[simp] theorem State.reply_lostByte : (s.reply tag kind st data).link.lostByte = s.link.lostByte := rfl
end Reply

section SetWork
variable (s : State) (w : Settings)
@[simp] theorem State.setWork_work : (s.setWork w).store.work = w := rfl
@[simp] theorem State.setWork_image : (s.setWork w).store.image = s.store.image := rfl
@[simp] theorem State.setWork_saving : (s.setWork w).store.saving = s.store.saving := rfl
@[simp] theorem State.setWork_restartTag : (s.setWork w).store.restartTag = s.store.restartTag := rfl
@[simp] theorem State.setWork_lanes : (s.setWork w).lanes = s.lanes := rfl
@[simp] theorem State.setWork_book : (s.setWork w).book = s.book := rfl
@[simp] theorem State.setWork_pool : (s.setWork w).pool = s.pool := rfl
@[simp] theorem State.setWork_exc : (s.setWork w).exc = s.exc := rfl
@[simp] theorem State.setWork_link : (s.setWork w).link = s.link := rfl
end SetWork

section ModEntry
variable (s : State) (n : Nat) (f : Entry → Entry)
@[simp] theorem State.modEntry_lanes : (s.modEntry n f).lanes = s.lanes := rfl
@[simp] theorem State.modEntry_book : (s.modEntry n f).book = s.book := rfl
@[simp] theorem State.modEntry_pool : (s.modEntry n f).pool = s.pool := rfl
@[simp] theorem State.modEntry_store : (s.modEntry n f).store = s.store := rfl
@[simp] theorem State.modEntry_link : (s.modEntry n f).link = s.link := rfl
@[simp] theorem State.modEntry_length : (s.modEntry n f).exc.entries.length = s.exc.entries.length := by
  simp [State.modEntry]
end ModEntry

@[simp] theorem State.withQueue_pending (s : State) (q : List Instr) : (s.withQueue q).pending = q := rfl
@[simp] theorem State.withQueue_withQueue (s : State) (p q : List Instr) :
    (s.withQueue p).withQueue q = s.withQueue q := rfl
@[simp] theorem State.withQueue_self (s : State) : s.withQueue s.pending = s := rfl

section BookFields
variable (b : BookUnit) (w : Nat) (f : Window → Window)
@[simp] theorem BookUnit.modWindow_table : (b.modWindow w f).table = b.table := rfl
@[simp] theorem BookUnit.modWindow_final : (b.modWindow w f).final = b.final := rfl
@[simp] theorem BookUnit.modWindow_length : (b.modWindow w f).windows.length = b.windows.length := by
  simp [BookUnit.modWindow]
end BookFields

@[simp] theorem BookUnit.modBooking_windows (b : BookUnit) (n : Nat) (f : Booking → Booking) :
    (b.modBooking n f).windows = b.windows := rfl
@[simp] theorem BookUnit.modBooking_final (b : BookUnit) (n : Nat) (f : Booking → Booking) :
    (b.modBooking n f).final = b.final := rfl
@[simp] theorem BookUnit.finalise_windows (b : BookUnit) (n : Nat) : (b.finalise n).windows = b.windows := rfl
@[simp] theorem BookUnit.finalise_table (b : BookUnit) (n : Nat) : (b.finalise n).table = b.table := rfl
@[simp] theorem BookUnit.unfinalise_windows (b : BookUnit) (n : Nat) : (b.unfinalise n).windows = b.windows := rfl
@[simp] theorem BookUnit.unfinalise_table (b : BookUnit) (n : Nat) : (b.unfinalise n).table = b.table := rfl

end Sys2Proof.Machine
end

