-- ==== Sys2Proof/Laws/Work.lean ====
section
/-! SUPPORT. What the shared operations can do, said once: the relation `Act` of an operation on the part and `Work` of an
operation on one lane, how they compose, and the plain updates, notices and exceptions. -/

namespace Sys2Proof.Machine

/-- An operation on the part: `Steady`, the bounds hold after it, and no entry of an old number is new. -/
structure Act (s t : State) : Prop where
  steady : Steady s t
  bounds : Bounds t
  next : s.exc.next ≤ t.exc.next
  kept : ∀ e ∈ t.exc.entries, e.number < s.exc.next → ∃ d ∈ s.exc.entries, d.number = e.number ∧ d.lane = e.lane

/-- An operation on one lane. -/
structure Work (l : LaneNo) (s t : State) : Prop where
  act : Act s t
  one : OneLane l s t

variable {s t u : State} {l : LaneNo}

/-! ### The relations compose -/

theorem Steady.refl (s : State) : Steady s s :=
  ⟨rfl, rfl, rfl, rfl, rfl, rfl, rfl, rfl, rfl, rfl, rfl, ⟨[], by simp⟩⟩

theorem Steady.trans (h : Steady s t) (k : Steady t u) : Steady s u where
  power := k.power.trans h.power
  pending := k.pending.trans h.pending
  freeIndex := k.freeIndex.trans h.freeIndex
  holds := k.holds.trans h.holds
  store := k.store.trans h.store
  rxPart := k.rxPart.trans h.rxPart
  rxBuffer := k.rxBuffer.trans h.rxBuffer
  badFrames := k.badFrames.trans h.badFrames
  overflows := k.overflows.trans h.overflows
  sent := k.sent.trans h.sent
  bays := k.bays.trans h.bays
  outbox := by
    obtain ⟨a, ha⟩ := h.outbox
    obtain ⟨b, hb⟩ := k.outbox
    exact ⟨a ++ b, by rw [hb, ha, List.map_append, List.append_assoc]⟩

theorem OneLane.refl (l : LaneNo) (s : State) : OneLane l s s :=
  ⟨rfl, rfl, fun _ _ => rfl, fun _ _ => rfl, .inl rfl⟩

theorem OneLane.trans (h : OneLane l s t) (k : OneLane l t u) : OneLane l s u where
  clock := k.clock.trans h.clock
  phase := k.phase.trans h.phase
  others m hm := (k.others m hm).trans (h.others m hm)
  flags m hm := (k.flags m hm).trans (h.flags m hm)
  gate := by
    rcases h.gate with a | ⟨a, b⟩ <;> rcases k.gate with c | ⟨c, d⟩
    · exact .inl (c.trans a)
    · exact .inr ⟨a ▸ c, d⟩
    · exact .inr ⟨a, c.trans b⟩
    · exact .inr ⟨a, d⟩

theorem Act.refl (hb : Bounds s) : Act s s := ⟨.refl s, hb, Nat.le_refl _, fun e he _ => ⟨e, he, rfl, rfl⟩⟩

theorem Act.trans (h : Act s t) (k : Act t u) : Act s u where
  steady := h.steady.trans k.steady
  bounds := k.bounds
  next := Nat.le_trans h.next k.next
  kept e he hn := by
    obtain ⟨d, hd, h1, h2⟩ := k.kept e he (Nat.lt_of_lt_of_le hn h.next)
    obtain ⟨c, hc, h3, h4⟩ := h.kept d hd (h1 ▸ hn)
    exact ⟨c, hc, h3.trans h1, h4.trans h2⟩

theorem Work.refl (hb : Bounds s) : Work l s s := ⟨.refl hb, .refl l s⟩

theorem Work.trans (h : Work l s t) (k : Work l t u) : Work l s u := ⟨h.act.trans k.act, h.one.trans k.one⟩

/-! ### The plain updates -/

theorem Act.setLane (h : Act s t) (m : LaneNo) (x : Lane) : Act s (t.setLane m x) :=
  h.trans ⟨⟨rfl, rfl, rfl, rfl, rfl, rfl, rfl, rfl, rfl, rfl, rfl, ⟨[], by simp⟩⟩,
    let b := h.bounds; ⟨b.1, b.2, b.3, b.4, b.5, b.6, b.7, b.8⟩, Nat.le_refl _, fun e he _ => ⟨e, he, rfl, rfl⟩⟩

theorem Act.modLane (h : Act s t) (m : LaneNo) (f : Lane → Lane) : Act s (t.modLane m f) := h.setLane _ _
theorem Act.modVisit (h : Act s t) (m : LaneNo) (f : Visit → Visit) : Act s (t.modVisit m f) := h.setLane _ _

theorem Work.modLane (h : Work l s t) (f : Lane → Lane) : Work l s (t.modLane l f) :=
  ⟨h.act.modLane l f, h.one.trans ⟨rfl, rfl, fun _ hm => State.modLane_other _ _ _ hm, fun _ _ => rfl, .inl rfl⟩⟩

theorem Work.modVisit (h : Work l s t) (f : Visit → Visit) : Work l s (t.modVisit l f) := h.modLane _
theorem Work.modPos (h : Work l s t) (p : Pos) (f : PosRec → PosRec) : Work l s (t.modPos l p f) := h.modVisit _
theorem Work.modCounters (h : Work l s t) (f : LaneCounters → LaneCounters) : Work l s (t.modCounters l f) := h.modLane _
theorem Work.modBarrier (h : Work l s t) (f : Barrier → Barrier) : Work l s (t.modBarrier l f) := h.modLane _
theorem Work.modSign (h : Work l s t) (f : Sign → Sign) : Work l s (t.modSign l f) := h.modLane _
theorem Work.modLine (h : Work l s t) (i : Input) (f : LineRec → LineRec) : Work l s (t.modLine l i f) := h.modLane _

/-- What a change of the Exception Table has to keep. -/
structure ExcKept (a b : ExcTable) : Prop where
  entries : b.entries.length ≤ Config.entryMax
  ascending : b.entries.Pairwise fun d e => d.number < e.number
  below : ∀ e ∈ b.entries, e.number < b.next
  next : a.next ≤ b.next
  kept : ∀ e ∈ b.entries, e.number < a.next → ∃ d ∈ a.entries, d.number = e.number ∧ d.lane = e.lane

theorem Act.setExc (h : Act s t) {x : ExcTable} (k : ExcKept t.exc x) : Act s { t with exc := x } :=
  h.trans ⟨⟨rfl, rfl, rfl, rfl, rfl, rfl, rfl, rfl, rfl, rfl, rfl, ⟨[], by simp⟩⟩,
    let b := h.bounds; ⟨b.1, b.2, k.entries, k.ascending, k.below, b.6, b.7, b.8⟩, k.next, k.kept⟩

theorem Work.setExc (h : Work l s t) {x : ExcTable} (k : ExcKept t.exc x)
    (hf : ∀ m, m ≠ l → x.unrecorded.get m = t.exc.unrecorded.get m) : Work l s { t with exc := x } :=
  ⟨h.act.setExc k, h.one.trans ⟨rfl, rfl, fun _ _ => rfl, hf, .inl rfl⟩⟩

/-- The table with other fields but the same entries and numbering. -/
theorem ExcKept.same (hb : Bounds t) {x : ExcTable} (he : x.entries = t.exc.entries) (hn : x.next = t.exc.next) :
    ExcKept t.exc x :=
  ⟨he ▸ hb.entries, he ▸ hb.ascending, by rw [he, hn]; exact hb.below, Nat.le_of_eq hn.symm,
    fun e h _ => ⟨e, he ▸ h, rfl, rfl⟩⟩

/-- The table with its entries changed one by one, their numbers and lanes kept. -/
theorem ExcKept.map (hb : Bounds t) {x : ExcTable} (f : Entry → Entry)
    (hf : ∀ e ∈ t.exc.entries, (f e).number = e.number ∧ (f e).lane = e.lane) (he : x.entries = t.exc.entries.map f) (hn : x.next = t.exc.next) :
    ExcKept t.exc x where
  entries := by rw [he, List.length_map]; exact hb.entries
  ascending := by
    rw [he, List.pairwise_map]
    exact hb.ascending.imp_of_mem fun {a b} ha hb' h => by rw [(hf a ha).1, (hf b hb').1]; exact h
  below := by
    rw [he, hn]
    intro e h
    obtain ⟨d, hd, rfl⟩ := List.mem_map.mp h
    rw [(hf d hd).1]; exact hb.below d hd
  next := Nat.le_of_eq hn.symm
  kept e h _ := by
    obtain ⟨d, hd, rfl⟩ := List.mem_map.mp (he ▸ h)
    exact ⟨d, hd, (hf d hd).1.symm, (hf d hd).2.symm⟩

theorem Work.mapEntries (h : Work l s t) (f : Entry → Entry)
    (hf : ∀ e ∈ t.exc.entries, (f e).number = e.number ∧ (f e).lane = e.lane) :
    Work l s { t with exc := { t.exc with entries := t.exc.entries.map f } } :=
  h.setExc (x := { t.exc with entries := t.exc.entries.map f }) (.map h.act.bounds f hf rfl rfl) fun _ _ => rfl

theorem Act.setBook (h : Act s t) {b : BookUnit} (hw : b.windows.length = Config.windowCount)
    (ho : b.overFlagsRight) : Act s { t with book := b } :=
  h.trans ⟨⟨rfl, rfl, rfl, rfl, rfl, rfl, rfl, rfl, rfl, rfl, rfl, ⟨[], by simp⟩⟩,
    let c := h.bounds; ⟨hw, ho, c.3, c.4, c.5, c.6, c.7, c.8⟩, Nat.le_refl _, fun e he _ => ⟨e, he, rfl, rfl⟩⟩

theorem Work.setBook (h : Work l s t) {b : BookUnit} (hw : b.windows.length = Config.windowCount)
    (ho : b.overFlagsRight) : Work l s { t with book := b } :=
  ⟨h.act.setBook hw ho, h.one.trans ⟨rfl, rfl, fun _ _ => rfl, fun _ _ => rfl, .inl rfl⟩⟩

theorem Act.setPool (h : Act s t) {p : BayPool} (hl : p.bays.length = t.pool.bays.length)
    (hw : p.waiting.length ≤ Config.waitingMax) : Act s { t with pool := p } :=
  h.trans ⟨⟨rfl, rfl, rfl, rfl, rfl, rfl, rfl, rfl, rfl, rfl, hl, ⟨[], by simp⟩⟩,
    let c := h.bounds; ⟨c.1, c.2, c.3, c.4, c.5, hw, c.7, c.8⟩, Nat.le_refl _, fun e he _ => ⟨e, he, rfl, rfl⟩⟩

theorem Work.setPool (h : Work l s t) {p : BayPool} (hl : p.bays.length = t.pool.bays.length)
    (hw : p.waiting.length ≤ Config.waitingMax) : Work l s { t with pool := p } :=
  ⟨h.act.setPool hl hw, h.one.trans ⟨rfl, rfl, fun _ _ => rfl, fun _ _ => rfl, .inl rfl⟩⟩

theorem Work.setNextVisit (h : Work l s t) (n : Nat) : Work l s { t with nextVisit := n } :=
  h.trans ⟨⟨⟨rfl, rfl, rfl, rfl, rfl, rfl, rfl, rfl, rfl, rfl, rfl, ⟨[], by simp⟩⟩,
      let b := h.act.bounds; ⟨b.1, b.2, b.3, b.4, b.5, b.6, b.7, b.8⟩, Nat.le_refl _, fun e he _ => ⟨e, he, rfl, rfl⟩⟩,
    ⟨rfl, rfl, fun _ _ => rfl, fun _ _ => rfl, .inl rfl⟩⟩

/-! ### Notices -/

theorem Act.queueNotice (h : Act s t) (n : Notice) : Act s (t.queueNotice n) := by
  refine h.trans ?_
  have b := h.bounds
  unfold State.queueNotice
  split
  · exact .refl b
  · split
    · next hc =>
      refine ⟨⟨rfl, rfl, rfl, rfl, rfl, rfl, rfl, rfl, rfl, rfl, rfl, ⟨[n], rfl⟩⟩,
        ⟨b.1, b.2, b.3, b.4, b.5, b.6, ?_, b.8⟩, Nat.le_refl _, fun e he _ => ⟨e, he, rfl, rfl⟩⟩
      simp only [Link.noticeCount, List.countP_append, List.countP_singleton, if_true] at hc ⊢
      omega
    · exact ⟨⟨rfl, rfl, rfl, rfl, rfl, rfl, rfl, rfl, rfl, rfl, rfl, ⟨[], by simp⟩⟩,
        ⟨b.1, b.2, b.3, b.4, b.5, b.6, b.7, Nat.min_le_left _ _⟩, Nat.le_refl _, fun e he _ => ⟨e, he, rfl, rfl⟩⟩

theorem Work.queueNotice (h : Work l s t) (n : Notice) : Work l s (t.queueNotice n) := by
  refine ⟨h.act.queueNotice n, h.one.trans ?_⟩
  unfold State.queueNotice
  split
  · exact .refl l t
  · split <;> exact ⟨rfl, rfl, fun _ _ => rfl, fun _ _ => rfl, .inl rfl⟩

theorem Work.changeLane (h : Work l s t) (now : LaneState) (cause : LaneCause) :
    Work l s (t.changeLane l now cause) := by
  unfold State.changeLane
  split
  · exact h
  · exact (h.modLane _).queueNotice _

theorem Act.setGate (h : Act s t) (g : GateMode) : Act s { t with gate := g } :=
  h.trans ⟨⟨rfl, rfl, rfl, rfl, rfl, rfl, rfl, rfl, rfl, rfl, rfl, ⟨[], by simp⟩⟩,
    let b := h.bounds; ⟨b.1, b.2, b.3, b.4, b.5, b.6, b.7, b.8⟩, Nat.le_refl _, fun e he _ => ⟨e, he, rfl, rfl⟩⟩

theorem Act.changeGate (h : Act s t) (now : GateMode) (cause : GateCause) : Act s (t.changeGate now cause) :=
  (h.setGate now).queueNotice _

theorem Work.lanesClosed (h : Work l s t) : Work l s t.lanesClosed := by
  unfold State.lanesClosed
  split
  · next hc =>
    have h1 : Work l s { t with gate := .shut } :=
      ⟨h.act.setGate _, h.one.trans ⟨rfl, rfl, fun _ _ => rfl, fun _ _ => rfl, .inr ⟨hc.1, rfl⟩⟩⟩
    exact h1.queueNotice _
  · exact h

/-! ### The Exception Table -/

theorem Work.enterTrouble (h : Work l s t) : Work l s (t.enterTrouble l) := by
  simp only [State.enterTrouble]
  split
  · exact h
  · have h1 := h.modLane fun x : Lane =>
      { x with
        interrupted := some x.state
        noted := match (t.lane l).visit with
          | some v => ⟨v.idSettle.isSome, v.sealWait.isSome, v.surveyWait.isSome⟩
          | none => ⟨false, false, false⟩
        lamp := .red
        visit := x.visit.map fun v =>
          { v with
            matchState := if v.matchState = .looking then .waiting else v.matchState
            idSettle := none, lookup := none, abandon := none, sealWait := none, surveyWait := none } }
    refine Work.changeLane (h1.mapEntries (fun e => if e.lane = some l then { e with left := none } else e) ?_) _ _
    intro e _; split <;> exact ⟨rfl, rfl⟩

theorem reclaimEntry_spec {es fs : List Entry} (h : reclaimEntry es = some fs) :
    fs.length < es.length ∧ fs.Sublist es := by
  have key : ∀ e : Entry, e ∈ es → (es.filter fun x => x.number ≠ e.number).length < es.length ∧
      (es.filter fun x => x.number ≠ e.number).Sublist es := by
    intro e he
    refine ⟨?_, List.filter_sublist⟩
    rw [← List.countP_eq_length_filter]
    exact List.countP_lt_length_iff.mpr ⟨e, he, by simp⟩
  unfold reclaimEntry at h
  split at h
  · next e he => cases h; exact key e (List.mem_of_find?_eq_some he)
  · split at h
    · next e he => cases h; exact key e (List.mem_of_find?_eq_some he)
    · cases h

theorem ExcTable.room_spec {x : ExcTable} {es : List Entry} {b : Bool} (h : x.room = some (es, b))
    (hx : x.entries.length ≤ Config.entryMax) : es.length < Config.entryMax ∧ es.Sublist x.entries := by
  unfold ExcTable.room at h
  split at h
  · cases h
  · split at h
    · cases h; exact ⟨‹_›, List.Sublist.refl _⟩
    · simp only [Option.map_eq_some_iff, Prod.mk.injEq] at h
      obtain ⟨a, ha, rfl, -⟩ := h
      exact ⟨Nat.lt_of_lt_of_le (reclaimEntry_spec ha).1 hx, (reclaimEntry_spec ha).2⟩

/-- The table that stores one more entry in its room. -/
theorem ExcKept.store (hb : Bounds t) {x : ExcTable} {es : List Entry} {b : Bool} (e : Entry)
    (hr : t.exc.room = some (es, b)) (hnum : e.number = t.exc.next) (he : x.entries = es ++ [e])
    (hn : x.next = t.exc.next + 1) : ExcKept t.exc x where
  entries := by
    have := (ExcTable.room_spec hr hb.entries).1
    rw [he]; simpa using this
  ascending := by
    have hs := (ExcTable.room_spec hr hb.entries).2
    rw [he, List.pairwise_append]
    refine ⟨hb.ascending.sublist hs, by simp, ?_⟩
    intro a ha c hc
    rw [List.mem_singleton.mp hc, hnum]
    exact hb.below a (hs.subset ha)
  below := by
    have hs := (ExcTable.room_spec hr hb.entries).2
    intro c hc
    rw [he, List.mem_append, List.mem_singleton] at hc
    rw [hn]
    rcases hc with hc | rfl
    · exact Nat.lt_succ_of_lt (hb.below c (hs.subset hc))
    · rw [hnum]; exact Nat.lt_succ_self _
  next := by rw [hn]; exact Nat.le_succ _
  kept c hc hlt := by
    have hs := (ExcTable.room_spec hr hb.entries).2
    rw [he, List.mem_append, List.mem_singleton] at hc
    rcases hc with hc | rfl
    · exact ⟨c, hs.subset hc, rfl, rfl⟩
    · rw [hnum] at hlt; exact absurd hlt (Nat.lt_irrefl _)

theorem Work.loseException (h : Work l s t) (r : Raise) (resp : Response) (ovr : Bool) (hr : r.lane = some l) :
    Work l s (t.loseException r resp ovr) := by
  simp only [State.loseException, hr]
  have h1 : Work l s { t with exc := { t.exc with lost := satInc t.exc.lost, full := true } } :=
    h.setExc (x := { t.exc with lost := satInc t.exc.lost, full := true }) (.same h.act.bounds rfl rfl) (fun _ _ => rfl)
  split
  · exact (h1.setExc (x := { t.exc with
      lost := satInc t.exc.lost, full := true, unrecorded := t.exc.unrecorded.set l true })
      (.same h1.act.bounds rfl rfl) fun m hm => PerLane.get_set_other _ _ hm).enterTrouble
  · exact h1

/-- Storing an entry with its EXCEPTION notice. -/
theorem Work.storeEntry (h : Work l s t) {x : ExcTable} {es : List Entry} {b : Bool} (e : Entry) (n : Notice)
    (hr : t.exc.room = some (es, b)) (hnum : e.number = t.exc.next) (he : x.entries = es ++ [e])
    (hn : x.next = t.exc.next + 1) (hu : x.unrecorded = t.exc.unrecorded) :
    Work l s (State.queueNotice { t with exc := x } n) :=
  (h.setExc (.store h.act.bounds e hr hnum he hn) fun _ _ => by rw [hu]).queueNotice n

/-- RAISING AN EXCEPTION for a lane acts on that lane alone. -/
theorem Work.raiseExc (h : Work l s t) (r : Raise) (hr : r.lane = some l) : Work l s (t.raiseExc r).1 := by
  simp only [State.raiseExc]
  split
  · exact h
  · split
    · exact h.loseException _ _ _ hr
    · next es left he =>
      have h2 := fun n => h.storeEntry (x := { t.exc with
        entries := es ++ [t.newEntry r (t.store.work.responseOf r.kind r.action) (t.raiseOverridden r)]
        next := t.exc.next + 1, full := if left then false else t.exc.full }) _ n he rfl rfl rfl rfl
      split
      · exact h2 _
      · split
        · exact h2 _
        · exact h2 _
        · exact h2 _
        · simp only [hr]; exact (h2 _).enterTrouble

theorem Work.raiseVisit (h : Work l s t) (k : ExcKind) (p : Option Pos) (detail : Nat) :
    Work l s (t.raiseVisit k l p detail).1 := h.raiseExc _ rfl

/-- An entry's number and lane stay; a change of one entry is work of any lane. -/
theorem Work.modEntry (h : Work l s t) (n : Nat) (f : Entry → Entry)
    (hf : ∀ e, (f e).number = e.number ∧ (f e).lane = e.lane) : Work l s (t.modEntry n f) := by
  refine h.setExc (.map h.act.bounds (fun e => if e.number = n then f e else e) ?_ rfl rfl) fun _ _ => rfl
  intro e _; split
  · exact hf e
  · exact ⟨rfl, rfl⟩

theorem Work.reportCleared (h : Work l s t) (n : Nat) : Work l s (t.reportCleared n) := by
  unfold State.reportCleared
  split
  · split
    · exact Work.queueNotice (h.modEntry n (fun x => x.resolved .cleared) fun _ => ⟨rfl, rfl⟩) _
    · exact h
  · exact h

/-- The entry of a number is the one found by any other test of the table. -/
theorem Bounds.entry_find (hb : Bounds t) {p : Entry → Bool} {e : Entry} (h : t.exc.entries.find? p = some e) :
    t.entry e.number = some e := by
  have hm := List.mem_of_find?_eq_some h
  have ha := hb.ascending
  unfold State.entry
  generalize t.exc.entries = es at hm ha
  induction es with
  | nil => cases hm
  | cons d ds ih =>
    rw [List.pairwise_cons] at ha
    rw [List.find?_cons]
    rcases List.mem_cons.mp hm with rfl | hm
    · simp
    · have := ha.1 e hm
      rw [show (d.number == e.number) = false by simp; omega]
      exact ih hm ha.2

theorem State.entry_number {n : Nat} {e : Entry} (h : t.entry n = some e) : e.number = n := by
  simpa using List.find?_some h

theorem Bounds.entry_mem (hb : Bounds t) {n : Nat} {d e : Entry} (h : t.entry n = some e) (hd : d ∈ t.exc.entries)
    (hn : d.number = n) : d = e := by
  have ha := hb.ascending
  have h' := h
  unfold State.entry at h'
  generalize t.exc.entries = es at hd ha h'
  induction es with
  | nil => cases hd
  | cons c cs ih =>
    rw [List.pairwise_cons] at ha
    rw [List.find?_cons] at h'
    rcases List.mem_cons.mp hd with rfl | hm
    · simpa [hn] using h'
    · have := ha.1 d hm
      rw [show (c.number == n) = false by simp; omega] at h'
      exact ih hm ha.2 h'

/-- A report of a failure acts on the entry's lane. -/
theorem Work.reportFailure (h : Work l s t) (n : Nat) (hl : ∀ e, t.entry n = some e → e.lane = some l) :
    Work l s (t.reportFailure n).1 := by
  simp only [State.reportFailure]
  split
  · next e he =>
    have hlane := hl e he
    split
    · split
      · have h1 : Work l s (State.modEntry t n fun _ =>
            { e with lane := some l, retries := min 7 (e.retries + 1), response := .hold, left := none }) := by
          refine h.mapEntries (fun d => if d.number = n then
            { e with lane := some l, retries := min 7 (e.retries + 1), response := .hold, left := none } else d) ?_
          intro d hd; split
          · next hn => rw [h.act.bounds.entry_mem he hd hn]; exact ⟨rfl, hlane.symm⟩
          · exact ⟨rfl, rfl⟩
        simp only [hlane]
        exact Work.enterTrouble (Work.queueNotice h1 _)
      · exact h.modEntry n (fun x => { x with retries := min 7 (e.retries + 1), left := t.retryStart e.lane })
          fun _ => ⟨rfl, rfl⟩
    · exact h
  · exact h

/-- A retry entry found for a lane is that lane's. -/
theorem State.retryEntry_lane (hb : Bounds t) {k : ExcKind} {p : Option Pos} {n : Nat}
    (h : t.retryEntry k l p = some n) : ∀ e, t.entry n = some e → e.lane = some l := by
  unfold State.retryEntry at h
  obtain ⟨d, hd, rfl⟩ := Option.map_eq_some_iff.mp h
  intro e he
  rw [hb.entry_find hd] at he
  cases he
  have := List.find?_some hd
  simp only [Bool.and_eq_true, beq_iff_eq] at this
  exact this.1.1.2

/-- The barrier's entry found for a lane is that lane's. -/
theorem State.barrierEntry_lane (hb : Bounds t) {n : Nat} (h : t.barrierEntry l = some n) :
    ∀ e, t.entry n = some e → e.lane = some l := by
  unfold State.barrierEntry at h
  obtain ⟨d, hd, rfl⟩ := Option.map_eq_some_iff.mp h
  intro e he
  rw [hb.entry_find hd] at he
  cases he
  have := List.find?_some hd
  simp only [Bool.and_eq_true, beq_iff_eq] at this
  exact this.2

theorem Work.clearRetry (h : Work l s t) (k : ExcKind) (p : Option Pos) : Work l s (t.clearRetry k l p) := by
  unfold State.clearRetry
  split
  · exact h.reportCleared _
  · exact h

theorem Work.reread (h : Work l s t) (n : Nat) (p : Pos) (more : List Byte) : Work l s (t.reread n l p more) :=
  h.queueNotice _

end Sys2Proof.Machine
end

