-- ==== Sys2Proof/Laws/Lane.lean ====
section
/-! SUPPORT. Each operation of Checks, Barrier and Delivery on a lane is work of that lane. -/

namespace Sys2Proof.Machine

variable {s t u : State} {l : LaneNo}

/-! ### Checks -/

theorem Work.evaluate (h : Work l s t) (n : CheckName) (a : Bool) : Work l s (t.evaluate l n a) := h.modVisit _

theorem Work.evaluateIds (h : Work l s t) : Work l s (t.evaluateIds l) := (h.evaluate _ _).evaluate _ _

theorem Work.bookingEvent (h : Work l s t) (o : Outcome) : Work l s (t.bookingEvent l o) := (h.modVisit _).evaluate _ _

theorem Work.timelinessEvent (h : Work l s t) (o : Outcome) : Work l s (t.timelinessEvent l o) :=
  (h.modVisit _).evaluate _ _

theorem Work.watchTest (h : Work l s t) (i : Identity) : Work l s (t.watchTest l i) := by
  simp only [State.watchTest]
  split
  · exact h
  · split
    · split
      · exact h
      · exact ((h.raiseExc _ rfl).modVisit _).evaluate _ _
    · exact h

/-! ### The Booking Unit's windows -/

/-- The windows keep their number and their over flags stay right. -/
structure WindowsKept (b c : BookUnit) : Prop where
  length : c.windows.length = b.windows.length
  flags : b.overFlagsRight → c.overFlagsRight

theorem WindowsKept.refl (b : BookUnit) : WindowsKept b b := ⟨rfl, id⟩

theorem WindowsKept.trans {a b c : BookUnit} (h : WindowsKept a b) (k : WindowsKept b c) : WindowsKept a c :=
  ⟨k.1.trans h.1, k.2 ∘ h.2⟩

theorem Window.evalOver_right (w : Window) :
    w.evalOver.overFlag = decide (w.evalOver.capacity < w.evalOver.booked + w.evalOver.admitted) := rfl

theorem WindowsKept.same {b c : BookUnit} (h : c.windows = b.windows) : WindowsKept b c :=
  ⟨by rw [h], fun k => by unfold BookUnit.overFlagsRight; rw [h]; exact k⟩

theorem WindowsKept.modify {a b : BookUnit} (h : WindowsKept a b) (w : Nat) (f : Window → Window) {c : BookUnit}
    (hc : c.windows = b.windows.modify w fun x => (f x).evalOver) : WindowsKept a c := by
  refine h.trans ⟨by rw [hc, List.length_modify], fun k x hx => ?_⟩
  rw [hc] at hx
  obtain ⟨i, hi, rfl⟩ := List.getElem_of_mem hx
  rw [List.getElem_modify]
  split
  · exact Window.evalOver_right _
  · exact k _ (List.getElem_mem _)

theorem WindowsKept.modWindow {a b : BookUnit} (h : WindowsKept a b) (w : Nat) (f : Window → Window) :
    WindowsKept a (b.modWindow w f) := h.modify w f rfl
theorem WindowsKept.addBooked {a b : BookUnit} (h : WindowsKept a b) (w k : Nat) : WindowsKept a (b.addBooked w k) :=
  h.modWindow w _
theorem WindowsKept.subBooked {a b : BookUnit} (h : WindowsKept a b) (w k : Nat) : WindowsKept a (b.subBooked w k) :=
  h.modWindow w _
theorem WindowsKept.modBooking {a b : BookUnit} (h : WindowsKept a b) (n : Nat) (f : Booking → Booking) :
    WindowsKept a (b.modBooking n f) := h.trans (.same rfl)
theorem WindowsKept.finalise {a b : BookUnit} (h : WindowsKept a b) (n : Nat) : WindowsKept a (b.finalise n) :=
  h.trans (.same rfl)
theorem WindowsKept.unfinalise {a b : BookUnit} (h : WindowsKept a b) (n : Nat) : WindowsKept a (b.unfinalise n) :=
  h.trans (.same rfl)

theorem BookUnit.release_kept (b : BookUnit) (minute n : Nat) (o : ReleaseOutcome) :
    WindowsKept b (b.release minute n o) := by
  have r := WindowsKept.refl b
  simp only [BookUnit.release]
  split
  · exact r
  · split
    · exact ((r.modWindow _ _).modBooking _ _).finalise _
    · split
      · exact ((r.subBooked _ _).modBooking _ _).finalise _
      · exact (r.modWindow _ _).modBooking _ _

theorem BookUnit.expire_kept (b : BookUnit) (w : Nat) : WindowsKept b (b.expire w) :=
  (WindowsKept.refl b).modify w
    (fun x => { x with
      booked := x.booked - ((b.table.filter fun k => k.state == .opened && k.window == w).map (·.units)).sum
      expired := true }) rfl

theorem BookUnit.lateClaim_kept (b : BookUnit) (t : ClaimTerms) (k : Booking) (l : LaneNo) (visit : Nat) :
    WindowsKept b (b.lateClaim t k l visit).1 := by
  have r := WindowsKept.refl b
  simp only [BookUnit.lateClaim]
  split
  · refine WindowsKept.modBooking (WindowsKept.addBooked ?_ _ _) _ _
    split
    · exact r.subBooked _ _
    · exact r.unfinalise _
  · exact r

theorem BookUnit.claim_kept (b : BookUnit) (t : ClaimTerms) (n : Nat) (l : LaneNo) (visit : Nat) :
    WindowsKept b (b.claim t n l visit).1 := by
  have r := WindowsKept.refl b
  simp only [BookUnit.claim]
  split
  · exact r
  · split
    · split <;> exact r
    · exact r
    · exact r
    · exact BookUnit.lateClaim_kept ..
    · split
      · exact BookUnit.lateClaim_kept ..
      · split
        · exact ((r.subBooked _ _).addBooked _ _).modBooking _ _
        · exact r.modBooking _ _
      · exact r.modBooking _ _

theorem Act.book (h : Act s t) {b : BookUnit} (k : WindowsKept t.book b) : Act s { t with book := b } :=
  h.setBook (k.1.trans h.bounds.windows) (k.2 h.bounds.flags)

theorem Work.book (h : Work l s t) {b : BookUnit} (k : WindowsKept t.book b) : Work l s { t with book := b } :=
  h.setBook (k.1.trans h.act.bounds.windows) (k.2 h.act.bounds.flags)

/-- The state of a pair. -/
theorem Work.pair {α : Type} {a : α} (h : Work l s t) : Work l s (t, a).1 := h

/-! ### The barrier -/

theorem Work.arriveAt (h : Work l s t) (a : Arrival) : Work l s (t.arriveAt l a).1 := by
  simp only [State.arriveAt]
  have h1 := h.modBarrier fun b =>
    { b with state := match a with | .up => .up | .down => .down, pending := none, left := none }
  split
  · refine Work.modBarrier ?_ _
    split
    · exact h1.reportCleared _
    · exact h1
  · exact h1

theorem Work.enterRaising (h : Work l s t) : Work l s (t.enterRaising l).1 := by
  simp only [State.enterRaising]
  split
  · exact (h.modBarrier _).arriveAt _
  · exact (h.modBarrier _).pair

theorem Work.enterLowering (h : Work l s t) : Work l s (t.enterLowering l).1 := by
  simp only [State.enterLowering]
  split
  · exact (h.modBarrier _).arriveAt _
  · exact (h.modBarrier _).pair

theorem Work.raiseArm (h : Work l s t) : Work l s (t.raiseArm l).1 := by
  simp only [State.raiseArm]
  split
  · exact h.enterRaising
  · exact h.enterRaising
  · exact (h.modBarrier _).pair
  · exact (h.modBarrier _).pair
  · split
    · exact (h.modBarrier _).pair
    · exact h.enterRaising

theorem Work.lowerArm (h : Work l s t) : Work l s (t.lowerArm l).1 := by
  simp only [State.lowerArm]
  split
  · split
    · exact (h.modBarrier _).pair
    · exact h.enterLowering
  · split
    · exact (h.modBarrier _).pair
    · exact h.enterLowering
  · exact h
  · exact h
  · split
    · exact (h.modBarrier _).pair
    · exact h.enterLowering

theorem Work.reverseArm (h : Work l s t) : Work l s (t.reverseArm l).1 := by
  simp only [State.reverseArm]
  split
  · exact (h.modCounters _).enterRaising
  · exact h

theorem Work.exitClears (h : Work l s t) : Work l s (t.exitClears l).1 := by
  simp only [State.exitClears]
  split
  · exact h.lowerArm
  · exact h

theorem Work.senseUp (h : Work l s t) : Work l s (t.senseUp l).1 := by
  simp only [State.senseUp]
  split
  · exact h.arriveAt _
  · exact h

theorem Work.senseDown (h : Work l s t) : Work l s (t.senseDown l).1 := by
  simp only [State.senseDown]
  split
  · exact h.arriveAt _
  · exact h

theorem Work.attemptMotion (h : Work l s t) : Work l s (t.attemptMotion l).1 := by
  simp only [State.attemptMotion]
  split
  · exact h
  · split
    · exact h.enterRaising
    · exact h.enterLowering

theorem Work.findArm (h : Work l s t) : Work l s (t.findArm l).1 := by
  simp only [State.findArm]
  split
  · exact h
  · split
    · exact h.arriveAt _
    · split
      · exact h.arriveAt _
      · exact h.attemptMotion

theorem Work.barrierFreed (h : Work l s t) : Work l s (t.barrierFreed l).1 := (h.modBarrier _).findArm

/-! ### The end of a visit -/

theorem Work.discard (h : Work l s t) (p : Entry → Bool) : Work l s (t.discard l p) := by
  have h1 := h.mapEntries (fun e => if p e then e.resolved .discarded else e)
    (by intro e _; split <;> exact ⟨rfl, rfl⟩)
  simp only [State.discard]
  split
  · exact h1.barrierFreed
  · exact h1

theorem Work.enterClosed (h : Work l s t) : Work l s (t.enterClosed l) :=
  (((h.changeLane _ _).modLane _).discard _).lanesClosed

theorem Work.openVisit (h : Work l s t) : Work l s (t.openVisit l) := by
  simp only [State.openVisit]
  exact (((h.modLane _).setNextVisit _).modCounters _).changeLane _ _

theorem Work.takeUpIdle (h : Work l s t) : Work l s (t.takeUpIdle l) := by
  simp only [State.takeUpIdle]
  split
  · exact h.enterClosed
  · split
    · exact h
    · exact h.openVisit

theorem Work.enterIdle (h : Work l s t) (c : LaneCause) : Work l s (t.enterIdle l c) := (h.changeLane _ _).takeUpIdle

theorem Work.release (h : Work l s t) (o : ReleaseOutcome) : Work l s (t.release l o) := by
  simp only [State.release]
  split
  · exact h.book (BookUnit.release_kept ..)
  · exact h

theorem Work.dropVisit (h : Work l s t) : Work l s (t.dropVisit l) := h.modLane _

theorem Work.visitClose (h : Work l s t) : Work l s (t.visitClose l) := by
  simp only [State.visitClose]
  split
  · exact h
  · split
    · exact h
    · exact Work.enterIdle ((((h.release _).modCounters _).discard _).dropVisit.modLane _) _

theorem Work.abandonVisit (h : Work l s t) : Work l s (t.abandonVisit l) := by
  simp only [State.abandonVisit]
  split
  · exact h
  · exact (((h.release _).discard _).dropVisit.modCounters _).enterIdle _

theorem Work.enterExiting (h : Work l s t) : Work l s (t.enterExiting l) := (h.modLane _).changeLane _ _

theorem Work.onDown (h : Work l s t) : Work l s (t.onDown l) := by
  simp only [State.onDown]
  split
  · exact h.visitClose
  · exact h

theorem Work.onUp (h : Work l s t) : Work l s (t.onUp l) := by
  simp only [State.onUp]
  split
  · split
    · exact h.enterExiting
    · exact h
  · split
    · have h1 := (h.modVisit fun v => { v with lowerHeld := false }).lowerArm
      split
      · next e => rw [e] at h1; exact h1.onDown
      · next e => rw [e] at h1; exact h1
    · exact h
  · exact h

/-- A motion of the barrier with the lane's act on its arrival. -/
theorem Work.arrived {r : State × Option Arrival} (h : Work l s r.1) : Work l s (State.arrived r l) := by
  unfold State.arrived
  split
  · exact h.onUp
  · exact h.onDown
  · exact h

theorem Work.motionFailed (h : Work l s t) (m : Motion) : Work l s (t.motionFailed l m) := by
  simp only [State.motionFailed]
  have h1 := h.modBarrier fun b => { b with state := .fault, pending := some m, exitHold := false, left := none }
  split
  · split
    · next n hn => exact h1.reportFailure _ (State.barrierEntry_lane h1.act.bounds hn)
    · exact h1
  · split
    · exact h1
    · split
      · exact (h1.raiseVisit _ _ _).modBarrier _
      · exact (h1.raiseVisit _ _ _).modBarrier _
      · exact h1.raiseVisit _ _ _

/-! ### The sign line and the release of the lane -/

theorem Work.testRelease (h : Work l s t) : Work l s (t.testRelease l) := by
  simp only [State.testRelease]
  split
  · next v _ _ =>
    have h1 : Work l s (if v.verdict.isSome = true ∧ v.releaseMet = true ∧ v.raiseCommanded = false then
        State.arrived ((t.modVisit l fun v => { v with raiseCommanded := true }).raiseArm l) l else t) := by
      split
      · exact (h.modVisit _).raiseArm.arrived
      · exact h
    generalize (if v.verdict.isSome = true ∧ v.releaseMet = true ∧ v.raiseCommanded = false then
        State.arrived ((t.modVisit l fun v => { v with raiseCommanded := true }).raiseArm l) l else t) = x at h1 ⊢
    split
    · exact h1.enterExiting
    · exact h1
  · exact h

theorem Work.serveSign (h : Work l s t) : Work l s (t.serveSign l) := by
  simp only [State.serveSign]
  split
  · exact ((h.modSign _).modVisit _).testRelease
  · exact h.modSign _

theorem Work.joinGroup (h : Work l s t) (g : Group) : Work l s (t.joinGroup l g) :=
  ((h.modSign _).modCounters _).serveSign

theorem Work.handOver (h : Work l s t) : Work l s (t.handOver l) := by
  simp only [State.handOver]
  split
  · exact h
  · exact (h.modVisit _).joinGroup _

/-! ### The Bay Pool -/

theorem servePool_spec (minute : Nat) (hs : List BayHold) (bs : List (Option BayHold)) :
    (servePool minute hs bs).1.length = bs.length ∧ (servePool minute hs bs).2.1.length ≤ hs.length := by
  induction hs generalizing bs with
  | nil => exact ⟨rfl, Nat.le_refl _⟩
  | cons h hs ih =>
    simp only [servePool]
    split
    · exact ⟨rfl, Nat.le_refl _⟩
    · obtain ⟨a, b⟩ := ih (bs.set _ (some { h with minute := minute }))
      exact ⟨a.trans List.length_set, Nat.le_succ_of_le b⟩

theorem Act.tellBay (h : Act s t) (bay : Nat) (k : BayHold) : Act s (t.tellBay bay k) := by
  simp only [State.tellBay]
  split
  · exact (h.queueNotice _).modVisit _ _
  · exact h.queueNotice _

theorem Act.foldl {α : Type} (f : State → α → State) (hf : ∀ t a, Act s t → Act s (f t a)) (xs : List α)
    (h : Act s t) : Act s (xs.foldl f t) := by
  induction xs generalizing t with
  | nil => exact h
  | cons x xs ih => exact ih (hf _ _ h)

theorem Work.foldl {α : Type} (f : State → α → State) (hf : ∀ t a, Work l s t → Work l s (f t a)) (xs : List α)
    (h : Work l s t) : Work l s (xs.foldl f t) := by
  induction xs generalizing t with
  | nil => exact h
  | cons x xs ih => exact ih (hf _ _ h)

/-- Serving the Waiting List is work on the part: the lanes of the waiting visits are told. -/
theorem Act.serveBays (h : Act s t) : Act s t.serveBays := by
  have k := servePool_spec t.clock.minute t.pool.waiting t.pool.bays
  simp only [State.serveBays]
  exact Act.foldl _ (fun t a h => h.tellBay a.1 a.2) _
    (h.setPool (p := ⟨_, _⟩) k.1 (Nat.le_trans k.2 h.bounds.waiting))

theorem Work.requestBay (h : Work l s t) : Work l s (t.requestBay l) := by
  simp only [State.requestBay]
  split
  · exact h
  · split
    · exact ((h.setPool (p := { t.pool with bays := _ }) List.length_set h.act.bounds.waiting).modVisit _).handOver
    · split
      · next hw =>
        exact ((h.setPool (p := { t.pool with waiting := t.pool.waiting ++ [_] }) rfl
          (by simpa using hw)).modVisit _).handOver
      · exact h.raiseVisit _ _ _

/-! ### Forming the verdict -/

theorem Work.tellVerdict (h : Work l s t) : Work l s (t.tellVerdict l) := by
  simp only [State.tellVerdict]
  split
  · exact h
  · split
    · exact (h.queueNotice _).modVisit _
    · exact h.queueNotice _

theorem Work.enterDecided (h : Work l s t) : Work l s (t.enterDecided l) := by
  simp only [State.enterDecided]
  split
  · exact ((h.modVisit _).changeLane _ _).requestBay
  · exact ((h.modVisit _).changeLane _ _).handOver

theorem Work.releaseStep (h : Work l s t) : Work l s (t.releaseStep l) := by
  simp only [State.releaseStep]
  split
  · exact h
  · split
    · exact h
    · split
      · split
        · exact h.evaluate _ _
        · exact ((h.evaluate _ _).raiseVisit _ _ _).modVisit _
      · exact h.evaluate _ _

theorem Work.attempt (h : Work l s t) : Work l s (t.attempt l) := by
  simp only [State.attempt]
  have h1 := (((h.modVisit fun v => { v with attempted := true }).watchTest .plate).watchTest .front).watchTest .rear
  split
  · exact h
  · split
    · exact h1
    · split
      · exact h1.releaseStep
      · exact (((h1.releaseStep.evaluate _ _).modVisit _).tellVerdict).enterDecided

theorem Work.settle (h : Work l s t) : Work l s (t.settle l) := by
  simp only [State.settle]
  split
  · split
    · exact h.attempt
    · exact h
  · exact h

end Sys2Proof.Machine
end

