-- ==== Sys2Proof/Laws/Part.lean ====
section
/-! SUPPORT. Each operation of Container, Match and Holds on a lane is work of that lane. -/

namespace Sys2Proof.Machine

variable {s t u : State} {l : LaneNo}

/-! ### Seal parts -/

theorem Work.makePos (h : Work l s t) (p : Pos) : Work l s (t.makePos l p) := h.modPos _ _

theorem Work.raiseSeal (h : Work l s t) (p : Pos) (o : SealOutcome) (n : Nat) : Work l s (t.raiseSeal l p o n) := by
  simp only [State.raiseSeal]
  split
  · split
    · exact h
    · exact (h.raiseVisit _ _ _).modPos _ _
  · split
    · exact h
    · exact (h.raiseVisit _ _ _).modPos _ _
  · exact h

theorem Work.clearEntry (h : Work l s t) (n : Option Nat) : Work l s (t.clearEntry n) := by
  simp only [State.clearEntry]
  split
  · exact h.reportCleared _
  · exact h

/-- A choice of two works. -/
theorem Work.ite {c : Prop} [Decidable c] (h : Work l s t) (k : Work l s u) : Work l s (if c then t else u) := by
  split
  · exact h
  · exact k

theorem Act.ite {c : Prop} [Decidable c] (h : Act s t) (k : Act s u) : Act s (if c then t else u) := by
  split
  · exact h
  · exact k

theorem Work.evalSeal (h : Work l s t) (p : Pos) (c : Bool) : Work l s (t.evalSeal l p c) := by
  simp only [State.evalSeal]
  split
  · split
    · exact h
    · refine Work.evaluate (.ite (.clearEntry ?_ _) ?_) _ _
      · exact .ite ((h.modPos _ _).raiseSeal _ _ _) (h.modPos _ _)
      · exact .ite ((h.modPos _ _).raiseSeal _ _ _) (h.modPos _ _)
  · exact h

theorem Work.closeSeal (h : Work l s t) (p : Pos) : Work l s (t.closeSeal l p) := by
  simp only [State.closeSeal]
  split
  · split
    · exact h.modPos _ _
    · exact (Work.ite ((h.modPos _ _).raiseSeal _ _ _) (h.modPos _ _)).evaluate _ _
  · exact h.modPos _ _

theorem Work.sealMissing (h : Work l s t) (p : Pos) : Work l s (t.sealMissing l p) := (h.modPos _ _).evaluate _ _

theorem Work.rereadSeal (h : Work l s t) (p : Pos) : Work l s (t.rereadSeal l p) := by
  simp only [State.rereadSeal]
  split
  · exact h.reread _ _ _
  · exact h

theorem Work.endSealWait (h : Work l s t) (p : Pos) (n : Nat) : Work l s (t.endSealWait l p n) := by
  simp only [State.endSealWait]
  have h1 := (h.raiseVisit .sealMissing (some p) n).modPos p fun x => x.modSeal fun y => { y with missingMark := true }
  split
  · exact h.sealMissing _
  · split
    · exact (h1.modPos _ _).rereadSeal _
    · exact (h1.modPos _ _).sealMissing _
    · exact h1.sealMissing _

theorem Work.expireSeal (h : Work l s t) (p : Pos) : Work l s (t.expireSeal l p) := by
  simp only [State.expireSeal]
  split
  · exact h
  · split
    · exact h
    · split
      · exact h.endSealWait _ _
      · exact h.closeSeal _

theorem Work.countDuplicate (h : Work l s t) : Work l s (t.countDuplicate l) := h.modCounters _

/-! ### Damage parts -/

theorem Work.raiseDamage (h : Work l s t) (p : Pos) (was : DamageOutcome) : Work l s (t.raiseDamage l p was) := by
  simp only [State.raiseDamage]
  split
  · exact h
  · split
    · split
      · exact h
      · exact (h.raiseVisit _ _ _).modPos _ _
    · split
      · exact h
      · exact (h.raiseVisit _ _ _).modPos _ _
    · exact h

theorem Work.gradeSurvey (h : Work l s t) (p : Pos) (sv : Survey) : Work l s (t.gradeSurvey l p sv) := by
  simp only [State.gradeSurvey]
  split
  · exact h
  · have h1 := fun f o => ((h.modPos p f).raiseDamage p o).evaluate (damageCheck p) false
    exact .ite ((h1 _ _).clearEntry _) (h1 _ _)

theorem Work.gradeHeld (h : Work l s t) (p : Pos) : Work l s (t.gradeHeld l p) := by
  simp only [State.gradeHeld]
  split
  · exact .ite (h.gradeSurvey _ _) h
  · exact h

theorem Work.unsurveyed (h : Work l s t) (p : Pos) : Work l s (t.unsurveyed l p) := (h.modPos _ _).evaluate _ _

theorem Work.rereadSurvey (h : Work l s t) (p : Pos) : Work l s (t.rereadSurvey l p) := h.reread _ _ _

theorem Work.endSurveyWait (h : Work l s t) (p : Pos) : Work l s (t.endSurveyWait l p) := by
  simp only [State.endSurveyWait]
  have h1 := (h.raiseVisit .surveyMissing (some p) 0).modPos p fun x =>
    x.modDamage fun y => { y with missingMark := true }
  split
  · exact h.unsurveyed _
  · split
    · exact (h1.modPos _ _).rereadSurvey _
    · exact (h1.modPos _ _).unsurveyed _
    · exact h1.unsurveyed _

theorem Work.expireSurvey (h : Work l s t) (p : Pos) : Work l s (t.expireSurvey l p) := by
  simp only [State.expireSurvey]
  exact .ite h (.ite (h.modPos _ _) (h.endSurveyWait _))

theorem Work.holdSurvey (h : Work l s t) (p : Pos) (sv : Survey) : Work l s (t.holdSurvey l p sv) := by
  simp only [State.holdSurvey]
  exact .ite ((h.modPos _ _).clearEntry _) (h.modPos _ _)

/-! ### Moves, spanning, IDs -/

theorem Work.findMoves (h : Work l s t) : Work l s (t.findMoves l) := by
  simp only [State.findMoves]
  split
  · exact h
  · have h1 := fun f => h.modVisit f
    have on : ∀ (b : Bool) (n : CheckName) (x : State), Work l s x → Work l s (if b then x.evaluate l n else x) :=
      fun _ _ _ hx => .ite (hx.evaluate _ _) hx
    exact on _ _ _ (on _ _ _ (on _ _ _ (on _ _ _ (h1 _))))

theorem Work.spanBox (h : Work l s t) (x : Text) : Work l s (t.spanBox l x) := by
  simp only [State.spanBox]
  have h1 := h.modVisit fun v => v.span x
  exact .ite (.evaluate (.ite (h1.evaluate _ _) h1) _ _) (.ite (h1.evaluate _ _) h1)

theorem Work.raiseConflict (h : Work l s t) (p : Pos) (n : Nat) : Work l s (t.raiseConflict l p n) := by
  simp only [State.raiseConflict]
  exact .ite (h.makePos _) ((((h.makePos _).raiseVisit _ _ _).modPos _ _).evaluate _ _)

theorem Work.raiseMismatch (h : Work l s t) (p : Pos) (n : Nat) : Work l s (t.raiseMismatch l p n) := by
  simp only [State.raiseMismatch]
  exact .ite (h.makePos _) ((((h.makePos _).raiseVisit _ _ _).modPos _ _).evaluate _ _)

theorem Work.raiseUnreadable (h : Work l s t) (p : Pos) (n : Nat) : Work l s (t.raiseUnreadable l p n) := by
  simp only [State.raiseUnreadable]
  exact .ite (h.makePos _) ((((h.makePos _).raiseVisit _ _ _).modPos _ _).evaluate _ _)

theorem Work.misread (h : Work l s t) (p : Pos) : Work l s (t.misread l p) := by
  simp only [State.misread]
  exact .ite (((h.modPos _ _).modCounters _).raiseUnreadable _ _) ((h.modPos _ _).modCounters _)

theorem Work.judgeSeals (h : Work l s t) :
    Work l s (bothPos.foldl (fun t p => if (t.posRec l p).recorded then t.evalSeal l p else t) t) :=
  Work.foldl _ (fun _ _ k => .ite (k.evalSeal _ _) k) _ h

theorem Work.judgeSealOf (h : Work l s t) (x : Text) :
    Work l s (bothPos.foldl (fun t p =>
      if (t.posRec l p).recorded ∧ (t.posRec l p).cid = some x then t.evalSeal l p else t) t) :=
  Work.foldl _ (fun _ _ k => .ite (k.evalSeal _ _) k) _ h

theorem Work.gradeBoth (h : Work l s t) : Work l s (bothPos.foldl (fun t p => t.gradeHeld l p) t) :=
  Work.foldl _ (fun _ _ k => k.gradeHeld _) _ h

theorem Work.idRecorded (h : Work l s t) (x : Text) (ps : List Pos) (i : Identity) :
    Work l s (t.idRecorded l x ps i) := by
  simp only [State.idRecorded]
  have h1 := (Work.foldl (fun t p => t.clearRetry .idUnreadable l (some p)) (fun _ _ k => k.clearRetry _ _) ps h).watchTest i
  exact (Work.ite (h1.findMoves.judgeSealOf _).gradeBoth h1).evaluateIds

theorem Work.placeRead (h : Work l s t) (x : Text) (r : ReadPos) (c : Pos) : Work l s (t.placeRead l x r c).1 := by
  simp only [State.placeRead]
  split
  · exact (h.modPos _ _).idRecorded _ _ _
  · exact (h.spanBox _).idRecorded _ _ _
  · exact h.countDuplicate
  · exact h.raiseConflict _ _

theorem Work.takeId (h : Work l s t) (x : Text) (r : ReadPos) : Work l s (t.takeId l x r).1 := by
  simp only [State.takeId]
  split
  · exact h.raiseConflict _ _
  · split
    · split
      · exact h.raiseMismatch _ _
      · split
        · exact h.placeRead _ _ _
        · exact h.placeRead _ _ _
    · exact h.placeRead _ _ _

/-! ### Finding and claiming the booking -/

theorem Work.setMatch (h : Work l s t) (m : MatchState) : Work l s (t.setMatch l m) := h.modVisit _
theorem Work.endLookup (h : Work l s t) : Work l s (t.endLookup l) := h.modVisit _

theorem Work.sendLookup (h : Work l s t) : Work l s (t.sendLookup l) := by
  simp only [State.sendLookup]
  split
  · exact h
  · exact (h.queueNotice _).modVisit _

theorem Work.startAbandon (h : Work l s t) : Work l s (t.startAbandon l) := by
  simp only [State.startAbandon]
  exact .ite (h.modVisit _) h

theorem Work.searchFailed (h : Work l s t) : Work l s (t.searchFailed l) := (h.setMatch _).attempt

theorem Work.noBooking (h : Work l s t) (d : Nat) : Work l s (t.noBooking l d) := by
  simp only [State.noBooking]
  have h1 := h.endLookup.bookingEvent .noBooking
  split
  · split
    · next n hn =>
      have h2 := h1.reportFailure n (State.retryEntry_lane h1.act.bounds hn)
      exact .ite (h2.setMatch _) h2
    · exact h1
  · split
    · exact (h1.raiseVisit _ _ _).modVisit _
    · exact (h1.raiseVisit _ _ _).setMatch _
    · exact (h1.raiseVisit _ _ _).searchFailed

theorem Work.bookingInUse (h : Work l s t) (holder : LaneNo) : Work l s (t.bookingInUse l holder) :=
  (((h.endLookup.setMatch _).bookingEvent _).raiseVisit _ _ _).searchFailed

theorem Work.windowLateFull (h : Work l s t) (n w : Nat) : Work l s (t.windowLateFull l n w) :=
  (((h.endLookup.modVisit _).timelinessEvent _).raiseVisit _ _ _).searchFailed

theorem Work.widen (h : Work l s t) : Work l s (t.widen l) := by
  refine Work.foldl _ ?_ _ h
  intro t m k
  split
  · exact k
  · simp only []
    split
    · exact k
    · split
      · exact k
      · exact .ite ((k.spanBox _).clearRetry _ _) (k.raiseMismatch _ _)

theorem Work.flagForeign (h : Work l s t) : Work l s (t.flagForeign l) :=
  Work.foldl _ (fun _ _ k => .ite (k.raiseMismatch _ _) k) _ h

theorem Work.comparePlates (h : Work l s t) : Work l s (t.comparePlates l) := by
  simp only [State.comparePlates]
  split
  · exact .ite h (h.raiseVisit _ _ _)
  · exact h

theorem Work.placeUnplaced (h : Work l s t) : Work l s (t.placeUnplaced l) := by
  refine Work.foldl _ ?_ _ (h.modVisit _)
  intro t m k
  split
  · exact k
  · split
    · exact k
    · exact (k.modPos _ _).countDuplicate
    · exact k.modPos _ _

theorem Work.takeClaim (h : Work l s t) (k : Booking) (c : Timeliness) : Work l s (t.takeClaim l k c) := by
  simp only [State.takeClaim]
  have h1 := ((((h.modVisit fun v =>
    { v with
      matchState := .claimed, claimed := some k.number, timeliness := some c, idSettle := none, lookup := none
      sealWait := some t.store.work.sealWait, surveyWait := some t.store.work.surveyWait }).changeLane .checking
      .matched).startAbandon.clearRetry .noBooking none).bookingEvent .pass).timelinessEvent
      (if c = .early then .windowEarly else .pass)
  have h2 : ∀ n, Work l s (if c = .early then (State.raiseVisit _ .windowEarly l none n).1 else _) :=
    fun n => .ite (h1.raiseVisit .windowEarly none n) h1
  exact (h2 _).widen.flagForeign.comparePlates.findMoves.placeUnplaced.judgeSeals.gradeBoth.evaluateIds.settle

theorem Work.claimBooking (h : Work l s t) (n : Nat) : Work l s (t.claimBooking l n) := by
  simp only [State.claimBooking]
  split
  · split
    · exact (h.book (BookUnit.claim_kept ..)).takeClaim _ _
    · exact h
  · exact h.bookingInUse _
  · exact h.windowLateFull _ _
  · exact h.noBooking _
  · exact h.noBooking _

theorem Work.noCandidate (h : Work l s t) : Work l s (t.noCandidate l) := (h.sendLookup.changeLane _ _).startAbandon

theorem Work.tryMatch (h : Work l s t) : Work l s (t.tryMatch l) := by
  simp only [State.tryMatch]
  have h1 := h.endLookup.modVisit fun v => { v with idSettle := none }
  have h2 : ∀ v : Visit, Work l s (match candidate t.book t.clock.minute v with
      | some k =>
        match k.state, k.claim with
        | .inLane, some (holder, _) => ((t.endLookup l).modVisit l fun v => { v with idSettle := none }).bookingInUse l holder
        | _, _ => ((t.endLookup l).modVisit l fun v => { v with idSettle := none }).claimBooking l k.number
      | none => ((t.endLookup l).modVisit l fun v => { v with idSettle := none }).noCandidate l) := by
    intro v
    split
    · split
      · exact h1.bookingInUse _
      · exact h1.claimBooking _
    · exact h1.noCandidate
  split
  · exact h2 _
  · exact h2 _
  · exact h

theorem Work.lookupAgain (h : Work l s t) : Work l s (t.lookupAgain l) := .ite h.sendLookup h

theorem Work.searchGivenUp (h : Work l s t) : Work l s (t.searchGivenUp l) := .ite h.endLookup.searchFailed h

/-! ### The return from TROUBLE -/

theorem Work.restartRetries (h : Work l s t) : Work l s (t.restartRetries l) :=
  h.mapEntries (fun e => if e.retrying ∧ e.lane = some l then { e with left := some t.store.work.retryInterval } else e)
    (by intro e _; split <;> exact ⟨rfl, rfl⟩)

theorem Work.resumeSearch (h : Work l s t) (n : Noted) : Work l s (t.resumeSearch l n) := by
  simp only [State.resumeSearch]
  have h1 := h.startAbandon
  split
  · exact h1.attempt
  · exact h1.tryMatch
  · exact .ite (h1.modVisit _) h1
  · exact h1

theorem Work.resumeChecking (h : Work l s t) (n : Noted) : Work l s (t.resumeChecking l n) :=
  (h.modVisit _).startAbandon.settle

theorem Work.resumeDecided (h : Work l s t) : Work l s (t.resumeDecided l) := by
  simp only [State.resumeDecided]
  split
  · exact h
  · exact (Work.ite h.handOver h).testRelease

theorem Work.resumeExiting (h : Work l s t) : Work l s (t.resumeExiting l) := by
  simp only [State.resumeExiting]
  have h1 := h.modLane fun x => { x with lamp := .green }
  split
  · exact h1.onDown
  · exact .ite ((h1.modVisit _).modVisit _).lowerArm.arrived (h1.modVisit _)

theorem Work.returnLane (h : Work l s t) : Work l s (t.returnLane l) := by
  simp only [State.returnLane]
  split
  · split
    · exact h
    · next st _ _ _ =>
      have h1 := ((h.modLane fun x => { x with interrupted := none, noted := ⟨false, false, false⟩ }).changeLane st
        .holdEnded).restartRetries
      split
      · exact h1.takeUpIdle
      · exact h1.resumeSearch _
      · exact h1.resumeSearch _
      · exact h1.resumeChecking _
      · exact h1.resumeDecided
      · exact h1.resumeExiting
      · exact h1
      · exact h1
  · exact h

/-! ### Resolutions -/

theorem Work.addWaiver (h : Work l s t) (n : CheckName) (w : Waiver) : Work l s (t.addWaiver l n w) := h.modVisit _

theorem Work.restoreHeld (h : Work l s t) (p : Pos) (x : Option Survey) : Work l s (t.restoreHeld l p x) := h.modPos _ _

theorem Work.evaluateAgain (h : Work l s t) (n : CheckName) (a : Bool) : Work l s (t.evaluateAgain l n a) := by
  simp only [State.evaluateAgain]
  split
  · exact h.evaluate _ _
  · split
    · exact .ite ((h.gradeSurvey _ _).restoreHeld _ _) (h.evaluate _ _)
    · exact .ite ((h.modPos _ _).evaluate _ _) (h.evaluate _ _)

theorem Work.resolutionOnVisit (h : Work l s t) (e : Entry) (o : Resolution) : Work l s (t.resolutionOnVisit l e o) := by
  simp only [State.resolutionOnVisit]
  split
  · split
    · split
      · exact (h.addWaiver _ _).evaluateAgain _ _
      · exact h
    · exact h.modVisit _
    all_goals exact h
  · exact h

theorem Work.changeVerdict (h : Work l s t) (d : Verdict) : Work l s (t.changeVerdict l d) := (h.modVisit _).tellVerdict

theorem Work.settleInspection (h : Work l s t) (n : Option Nat) (o : Resolution) :
    Work l s (t.settleInspection l n o) := by
  simp only [State.settleInspection]
  split
  · split
    · exact h.modVisit _
    · exact h.changeVerdict _
    · exact h.changeVerdict _
    all_goals exact h
  · exact h

theorem Work.tellBlock (h : Work l s t) (e : Entry) : Work l s (t.tellBlock l e) := by
  simp only [State.tellBlock]
  split
  · split
    · exact .ite (h.closeSeal _) h
    · exact h
  · split
    · exact .ite h (.ite (h.unsurveyed _) (h.modPos _ _))
    · exact h
  · exact .ite h.searchGivenUp h
  · exact h

theorem Work.restartStall (h : Work l s t) : Work l s (t.restartStall l) := h.modSign _

/-- The resolution of an entry of a lane is work of that lane. -/
theorem Work.resolveEntry (h : Work l s t) (e : Entry) (o : Resolution) (he : e.lane = some l) :
    Work l s (t.resolveEntry e o) := by
  simp only [State.resolveEntry, he]
  have h1 := h.modEntry e.number (fun x => x.resolved o) fun _ => ⟨rfl, rfl⟩
  have h2 := Work.ite (c := e.kind = .inspectionFull) (h1.settleInspection e.visit o) (h1.resolutionOnVisit e o)
  have h3 := Work.ite (c := e.retrying = true) (h2.tellBlock e) h2
  split
  · exact h3.restartStall
  · exact .ite h3.barrierFreed.arrived h3

theorem Work.clearUnrecorded (h : Work l s t) : Work l s (t.clearUnrecorded l) := by
  simp only [State.clearUnrecorded]
  have h1 := h.setExc (x := { t.exc with unrecorded := t.exc.unrecorded.set l false })
    (.same h.act.bounds rfl rfl) fun m hm => PerLane.get_set_other _ _ hm
  split
  · exact (Work.ite h1 h1.findArm.arrived).restartStall.settleInspection _ _
  · exact h

/-- Every entry of one of the numbers is one of the lane, and the numbers are old. -/
def Ours (l : LaneNo) (s : State) (ns : List Nat) : Prop :=
  ∀ n ∈ ns, n < s.exc.next ∧ ∀ e ∈ s.exc.entries, e.number = n → e.lane = some l

theorem Ours.entry {ns : List Nat} (h : Ours l s ns) (k : Act s t) {n : Nat} (hn : n ∈ ns) {e : Entry}
    (he : t.entry n = some e) : e.lane = some l := by
  have hnum := State.entry_number he
  obtain ⟨hlt, hall⟩ := h n hn
  obtain ⟨d, hd, h1, h2⟩ := k.kept e (List.mem_of_find?_eq_some he) (hnum ▸ hlt)
  exact h2 ▸ hall d hd (h1.trans hnum)

theorem Work.resolveAll (h : Work l s t) (p : EntryState → Bool) (o : Resolution) (ns : List Nat) (hn : Ours l s ns) :
    Work l s (t.resolveAll p o ns).1 := by
  induction ns generalizing t with
  | nil => exact h
  | cons n ns ih =>
    have hn' : Ours l s ns := fun m hm => hn m (List.mem_cons_of_mem _ hm)
    simp only [State.resolveAll]
    split
    · next e he =>
      split
      · exact ih (h.resolveEntry e o (hn.entry h.act List.mem_cons_self he)) hn'
      · exact ih h hn'
    · exact ih h hn'

/-! ### Retry steps -/

theorem Work.rearmRetry (h : Work l s t) (n : Nat) : Work l s (t.rearmRetry n) := by
  simp only [State.rearmRetry]
  split
  · exact .ite (h.modEntry n (fun x => { x with left := t.retryStart x.lane }) fun _ => ⟨rfl, rfl⟩) h
  · exact h

theorem Work.rereadId (h : Work l s t) (p : Pos) : Work l s (t.rereadId l p) := (h.reread _ _ _).modPos _ _

variable {e : Entry}

theorem Work.stepId (h : Work l s t) (p : Pos) (he : ∀ d, t.entry e.number = some d → d.lane = some l) :
    Work l s (t.stepId l e p) := by
  simp only [State.stepId]
  split
  · exact h.reportCleared _
  · split
    · exact ((h.modEntry e.number (fun x => { x with called := true }) fun _ => ⟨rfl, rfl⟩).rereadId _).rearmRetry _
    · have h1 := h.reportFailure e.number he
      split
      · next q => rw [q] at h1; exact h1.rereadId _
      · next q => rw [q] at h1; exact h1

theorem Work.stepSeal (h : Work l s t) (he : ∀ d, t.entry e.number = some d → d.lane = some l) :
    Work l s (t.stepSeal l e) := by
  simp only [State.stepSeal]
  split
  · exact h.rearmRetry _
  · split
    · exact h.rearmRetry _
    · split
      · exact h.rearmRetry _
      · split
        · exact (h.reportCleared _).closeSeal _
        · have h1 := h.reportFailure e.number he
          split
          · next q => rw [q] at h1; exact h1.rereadSeal _
          · next q => rw [q] at h1; exact h1.sealMissing _
          · next q => rw [q] at h1; exact h1

theorem Work.surveyFound (h : Work l s t) (p : Pos) (n : Nat) : Work l s (t.surveyFound l p n) := (h.modPos _ _).reportCleared _

theorem Work.stepSurvey (h : Work l s t) (he : ∀ d, t.entry e.number = some d → d.lane = some l) :
    Work l s (t.stepSurvey l e) := by
  simp only [State.stepSurvey]
  split
  · exact h.rearmRetry _
  · split
    · exact h.rearmRetry _
    · split
      · exact h.surveyFound _ _
      · have h1 := h.reportFailure e.number he
        split
        · next q => rw [q] at h1; exact h1.rereadSurvey _
        · next q => rw [q] at h1; exact h1.unsurveyed _
        · next q => rw [q] at h1; exact h1

/-- An entry of the table stays with its lane through a work. -/
theorem Work.entry_lane (h : Work l s t) (hb : Bounds s) {n : Nat} (hs : s.entry n = some e) {d : Entry}
    (ht : t.entry n = some d) : d.lane = e.lane := by
  have hd := State.entry_number ht
  have hlt := hb.below e (List.mem_of_find?_eq_some hs)
  rw [State.entry_number hs] at hlt
  obtain ⟨c, hc, h1, h2⟩ := h.act.kept d (List.mem_of_find?_eq_some ht) (hd ▸ hlt)
  rw [← h2, hb.entry_mem hs hc (h1.trans hd)]

/-- The retry step of an entry of the table is work of the entry's lane. -/
theorem Work.retryStep (hb : Bounds s) (he : s.entry e.number = some e) (hl : e.lane = some l) :
    Work l s (s.retryStep e) := by
  have h1 := (Work.refl (l := l) hb).modEntry e.number (fun x => { x with left := none }) fun _ => ⟨rfl, rfl⟩
  have k : ∀ d, (s.modEntry e.number fun x => { x with left := none }).entry e.number = some d → d.lane = some l :=
    fun d hd => (h1.entry_lane hb he hd).trans hl
  simp only [State.retryStep, hl]
  split
  · exact h1.stepId _ k
  · exact h1.lookupAgain.rearmRetry _
  · exact h1.stepSeal k
  · exact h1.stepSurvey k
  · exact h1.attemptMotion.arrived.rearmRetry _
  · exact h1.rearmRetry _

theorem Work.rearm (h : Work l s t) : Work l s (t.rearm l e) := by
  simp only [State.rearm]
  split
  · split
    · have h1 := fun p => (h.modPos p fun r => { r with misreads := 0 }).modEntry e.number (fun x => { x with called := false })
        fun _ => ⟨rfl, rfl⟩
      exact .ite ((h1 _).reportCleared _) (h1 _)
    · exact h
  · exact h.modVisit _
  · split
    · exact h
    · split
      · exact h
      · have h1 := fun (p : Pos) (c : Bool) => Work.ite (c := c = true) (h.modPos p fun r => r.modSeal fun x => { x with phase := .extended }) h
        exact .ite (((h1 _ _).closeSeal _).reportCleared _)
          (.ite (.ite (((h1 _ _).evalSeal _ _).rereadSeal _) ((h1 _ _).evalSeal _ _)) h)
  · split
    · exact h
    · exact .ite (h.surveyFound _ _) (.ite (((h.modPos _ _).evaluate _ _).rereadSurvey _) h)
  · exact .ite h ((h.reportCleared _).modBarrier _)
  · exact h

end Sys2Proof.Machine
end

