-- ==== Sys2Proof/Laws/Rules.lean ====
section
/-! SUPPORT. The operations of the lines, visits, signs and reads on a lane are work of that lane; the operations on windows,
bays and the gate are work on the part; what the rules of the requests come to. -/

namespace Sys2Proof.Machine

variable {s t u : State} {l : LaneNo}

/-! ### The lines -/

theorem Work.entryOccupied (h : Work l s t) (b : Bool) : Work l s (t.entryOccupied l b) := by
  simp only [State.entryOccupied]
  split
  · exact .ite h h.openVisit
  all_goals first | exact h.modVisit _ | exact h

theorem Work.entryCleared (h : Work l s t) : Work l s (t.entryCleared l) := .ite h.startAbandon h

theorem Work.exitOccupied (h : Work l s t) : Work l s (t.exitOccupied l) := .ite (h.modVisit _) h

theorem Work.exitCleared (h : Work l s t) : Work l s (t.exitCleared l) := by
  simp only [State.exitCleared]
  exact .ite (.ite (h.modVisit _).lowerArm.arrived ((h.modVisit _).modVisit _)) h

theorem Work.watchLoop (h : Work l s t) (i : Loop) (b : Bool) : Work l s (t.watchLoop l i b) := by
  simp only [State.watchLoop]
  exact .ite (.ite h (h.modLane _)) (h.modLane _)

theorem Work.callNotice (h : Work l s t) : Work l s (t.callNotice l) := h.queueNotice _

theorem Work.laneUser (h : Work l s t) (i : Input) (b : Bool) : Work l s (t.laneUser l i b) := by
  unfold State.laneUser
  split
  · exact h.entryOccupied _
  · exact h.entryOccupied _
  · exact h.entryCleared
  · exact h.entryCleared
  · exact h.exitOccupied
  · exact h.exitCleared
  · exact h.callNotice
  all_goals exact h

theorem Work.barrierUser (h : Work l s t) (i : Input) (b : Bool) : Work l s (t.barrierUser l i b) := by
  unfold State.barrierUser
  split
  · exact h.reverseArm.arrived
  · exact h.exitClears.arrived
  · exact h.senseUp.arrived
  · exact h.senseDown.arrived
  · exact h

theorem Work.stuckUser (h : Work l s t) (i : Input) (b : Bool) : Work l s (t.stuckUser l i b) := by
  unfold State.stuckUser
  split
  · exact h.watchLoop _ _
  · exact h

theorem Work.conditioned (h : Work l s t) (i : Input) (b : Bool) : Work l s (t.conditioned l i b) :=
  ((h.laneUser i b).barrierUser i b).stuckUser i b

theorem Work.takeSettled (h : Work l s t) (i : Input) (b : Bool) : Work l s (t.takeSettled l i b) := by
  simp only [State.takeSettled]
  split
  · exact (h.modLine _ _).conditioned _ _
  · exact (h.modLine _ _).modCounters _

theorem Work.readRaw (h : Work l s t) (i : Input) : Work l s (t.readRaw l i) := by
  simp only [State.readRaw]
  exact .ite (h.modLine _ _) (.ite h (.ite (h.takeSettled _ _) (h.modLine _ _)))

theorem Work.settleEnds (h : Work l s t) (i : Input) : Work l s (t.settleEnds l i) := .ite (h.takeSettled _ _) h

theorem Work.setForce (h : Work l s t) (i : Input) (f : Option Bool) : Work l s (t.setForce l i f) := by
  simp only [State.setForce]
  exact .ite (h.modLine _ _) ((h.modLine _ _).conditioned _ _)

theorem Work.setRaw (h : Work l s t) (i : Input) (b : Bool) : Work l s (t.setRaw l i b) := h.modLine _ _

theorem Work.loopStuck (h : Work l s t) (i : Loop) : Work l s (t.loopStuck l i) := (h.raiseVisit _ _ _).modLane _

/-! ### Opening, closing and resetting a lane -/

theorem Work.startWatches (h : Work l s t) : Work l s (t.startWatches l) :=
  Work.foldl _ (fun _ _ k => .ite (k.watchLoop _ _) k) _ h

theorem Work.openLane (h : Work l s t) : Work l s (t.openLane l) := by
  simp only [State.openLane]
  have h2 := ((h.changeLane .idle .laneOpened).modLane fun x => { x with lamp := .red, closePending := false }).startWatches
  exact (Work.ite h2 h2.lowerArm.arrived).takeUpIdle

theorem Work.closeLane (h : Work l s t) : Work l s (t.closeLane l) := by
  simp only [State.closeLane]
  split
  · exact h.enterClosed
  · exact h
  · exact h.modLane _

/-- A work of some lane as work on the part. -/
theorem Act.work (h : Act s t) (l : LaneNo) (k : Work l t u) : Act s u := h.trans k.act

/-- The work of a lane after work on the part. -/
theorem Act.start (h : Act s t) (l : LaneNo) : Work l t t := .refl h.bounds

/-- A pool without a visit's hold keeps its bays and lists no more entries. -/
theorem BayPool.without_spec {p q : BayPool} {v : Visit} (h : p.without l v = some q) :
    q.bays.length = p.bays.length ∧ q.waiting.length ≤ p.waiting.length := by
  unfold BayPool.without at h
  split at h
  · cases h
    exact ⟨List.length_set, Nat.le_refl _⟩
  · obtain ⟨-, h⟩ := Option.ite_none_right_eq_some.mp h
    cases h
    exact ⟨rfl, List.length_eraseP_le⟩

theorem Act.returnBay (h : Act s t) (l : LaneNo) : Act s (t.returnBay l) := by
  simp only [State.returnBay]
  split
  · next q hq =>
    obtain ⟨v, -, hv⟩ := Option.bind_eq_some_iff.mp hq
    have k := BayPool.without_spec hv
    exact (h.setPool k.1 (Nat.le_trans k.2 h.bounds.waiting)).serveBays
  · exact h

/-- RESET_LANE is work on the part: freeing a bay may serve the Waiting List, which tells other lanes. -/
theorem Act.resetLane (h : Act s t) (l : LaneNo) : Act s (t.resetLane l) := by
  simp only [State.resetLane]
  have h1 : Act s ((t.release l .turned).returnBay l) := (h.work l (h.start l |>.release _)).returnBay l
  refine h1.work l ?_
  have h4 := ((((h1.start l).modSign Sign.clear).lowerArm).discard fun e => e.resetWith l ((t.visit l).map Visit.number))
  exact ((h4.setExc (x := { (_ : State).exc with unrecorded := (_ : State).exc.unrecorded.set l false })
    (.same h4.act.bounds rfl rfl) fun m hm => PerLane.get_set_other _ _ hm).modLane _).enterIdle _

/-! ### Reads and waits -/

theorem Work.recordPlate (h : Work l s t) (x : Text) : Work l s (t.recordPlate l x) := by
  simp only [State.recordPlate]
  exact .ite h ((h.modVisit _).watchTest _)

theorem Work.setSeen (h : Work l s t) (p : Pos) (xs : List SeenSeal) : Work l s (t.setSeen l p xs) := h.modPos _ _

theorem Work.missingBoxes (h : Work l s t) : Work l s (t.missingBoxes l) := by
  simp only [State.missingBoxes]
  split
  · exact h
  · exact .ite (.raiseUnreadable (.ite (h.raiseUnreadable _ _) h) _ _) (.ite (h.raiseUnreadable _ _) h)

theorem Work.sealWaitEnds (h : Work l s t) : Work l s (t.sealWaitEnds l) :=
  (Work.foldl _ (fun _ _ k => k.expireSeal _) _ (h.modVisit _).missingBoxes.findMoves).settle

theorem Work.surveyWaitEnds (h : Work l s t) : Work l s (t.surveyWaitEnds l) :=
  (Work.foldl _ (fun _ _ k => k.expireSurvey _) _ (h.modVisit _)).settle

/-! ### Overrides, signs, entries -/

theorem Work.setOverride (h : Work l s t) (n : CheckName) (o : Option Bool) : Work l s (t.setOverride l n o) :=
  h.modVisit _

theorem Work.evaluateFreed (h : Work l s t) (n : CheckName) : Work l s (t.evaluateFreed l n) :=
  .ite (h.modVisit _) (h.evaluateAgain _ _)

theorem Work.joinText (h : Work l s t) (x : Text) : Work l s (t.joinText l x) := (h.modSign _).serveSign

theorem Work.signReady (h : Work l s t) (c : Byte) : Work l s (t.signReady l c) := .ite (h.modSign _).serveSign h

theorem Work.signFrame (h : Work l s t) (f : Frame) : Work l s (t.signFrame l f) := by
  simp only [State.signFrame]
  split
  · exact .ite (h.signReady _) h
  · exact h

theorem Work.signHear (h : Work l s t) (bs : List Byte) : Work l s (t.signHear l bs) :=
  Work.foldl _ (fun _ _ k => k.signFrame _) _ (h.modSign _)

theorem Work.stallEnds (h : Work l s t) : Work l s (t.stallEnds l) := by
  simp only [State.stallEnds]
  split
  · exact h.modSign _
  · have h1 := (h.modSign fun x => { x with stall := none, reported := true }).raiseExc
      ⟨.signStalled, some l, t.stalledVisit l, none, unsentCount (t.lane l).sign.queue, .inspect⟩ rfl
    exact .ite (h1.modVisit _).testRelease h1

theorem Work.follow (h : Work l s t) : Work l s (t.follow (some l)) := h.returnLane.settle

theorem Act.follow (h : Act s t) (o : Option LaneNo) : Act s (t.follow o) := by
  cases o with
  | none => exact h
  | some l => exact h.work l (h.start l).follow

/-- Old numbers of entries of the lane. -/
theorem Bounds.ours (hb : Bounds s) {p : Entry → Bool} (hp : ∀ e, p e = true → e.lane = some l) :
    Ours l s ((s.exc.entries.filter p).map (·.number)) := by
  intro n hn
  obtain ⟨e, he, rfl⟩ := List.mem_map.mp hn
  obtain ⟨hm, hpe⟩ := List.mem_filter.mp he
  refine ⟨hb.below e hm, fun d hd hdn => ?_⟩
  rcases List.pairwise_iff_getElem.mp hb.ascending with hasc
  obtain ⟨i, hi, rfl⟩ := List.getElem_of_mem hm
  obtain ⟨j, hj, rfl⟩ := List.getElem_of_mem hd
  rcases Nat.lt_trichotomy i j with h | h | h
  · exact absurd hdn (Nat.ne_of_gt (hasc i j hi hj h))
  · subst h; exact hp _ hpe
  · exact absurd hdn (Nat.ne_of_lt (hasc j i hj hi h))

/-! ### Windows, the clock's tests, the rollover -/

theorem Act.expireWindow (h : Act s t) (w : Nat) : Act s (t.expireWindow w) :=
  (h.book (BookUnit.expire_kept ..)).queueNotice _

theorem Act.expiryTest (h : Act s t) : Act s t.expiryTest :=
  Act.foldl _ (fun _ _ k => .ite (k.expireWindow _) k) _ h

theorem BookUnit.roll_kept (b : BookUnit) (cap : Nat) (hw : b.windows.length = Config.windowCount)
    (ho : b.overFlagsRight) :
    (b.roll cap).1.windows.length = Config.windowCount ∧ (b.roll cap).1.overFlagsRight := by
  have hk := (WindowsKept.refl b).modify Config.dayWindows (fun x => { x with booked := x.booked +
    ((b.table.filter fun k => decide (k.window < Config.dayWindows) && k.state == .inLane).map (·.units)).sum })
    (c := { b with windows := _ }) rfl
  constructor
  · simp [BookUnit.roll, hw, Config.windowCount, Config.dayWindows]
  · intro x hx
    rcases List.mem_append.mp hx with hx | hx
    · exact hk.2 ho x (List.mem_of_mem_drop hx)
    · rw [List.eq_of_mem_replicate hx]
      simp [Window.new]

theorem Act.rollover (h : Act s t) (day : Nat) : Act s (t.rollover day) := by
  simp only [State.rollover]
  have h1 : Act s ((List.range Config.dayWindows).foldl
    (fun t w => if (t.book.window w).expired = false then t.expireWindow w else t) t) :=
    Act.foldl _ (fun _ _ k => .ite (k.expireWindow _) k) _ h
  generalize (List.range Config.dayWindows).foldl
    (fun t w => if (t.book.window w).expired = false then t.expireWindow w else t) t = x at h1 ⊢
  have hk := BookUnit.roll_kept x.book x.store.work.defaultCapacity h1.bounds.windows h1.bounds.flags
  exact (h1.setBook hk.1 hk.2).queueNotice _

theorem Act.setTime (h : Act s t) (c : Clock) (p : Nat) : Act s { t with clock := c, phase := p } :=
  h.trans ⟨⟨rfl, rfl, rfl, rfl, rfl, rfl, rfl, rfl, rfl, rfl, rfl, ⟨[], by simp⟩⟩,
    let b := h.bounds; ⟨b.1, b.2, b.3, b.4, b.5, b.6, b.7, b.8⟩, Nat.le_refl _, fun e he _ => ⟨e, he, rfl, rfl⟩⟩

/-- A second of the Gate Clock. -/
theorem Act.clockSecond (h : Act s t) : Act s t.clockSecond := by
  simp only [State.clockSecond]
  exact .ite h (.ite (h.setTime _ _) (.ite (h.setTime _ _).expiryTest ((h.setTime _ _).rollover _)))

theorem Act.rereadPolarities (h : Act s t) (old : PerLane (PerInput Bool)) : Act s (t.rereadPolarities old) :=
  Act.foldl _ (fun _ l k => Act.foldl _ (fun _ i k => .ite k (k.work l ((k.start l).readRaw i))) _ k) _ h

theorem Act.eachLane (h : Act s t) (f : Lane → Lane) : Act s (t.eachLane f) :=
  h.trans ⟨⟨rfl, rfl, rfl, rfl, rfl, rfl, rfl, rfl, rfl, rfl, rfl, ⟨[], by simp [State.eachLane]⟩⟩,
    let b := h.bounds; ⟨b.1, b.2, b.3, b.4, b.5, b.6, b.7, b.8⟩, Nat.le_refl _, fun e he _ => ⟨e, he, rfl, rfl⟩⟩

theorem Act.drain (h : Act s t) : Act s t.drain := by
  have h1 : Act s (allLanes.foldl (fun t l => t.closeLane l) (t.changeGate .draining .gateShut)) :=
    Act.foldl _ (fun _ l k => k.work l (k.start l).closeLane) _ (h.changeGate _ _)
  exact h1.work .l1 (h1.start .l1).lanesClosed

end Sys2Proof.Machine
end

