-- ==== Sys2Proof/Laws/Requests.lean ====
section
/-! SUPPORT. What taking a request comes to, said once, and what each rule of a request does: an answer with work on the part
(`Act`), or with work of the lane it names. -/

namespace Sys2Proof.Machine

variable {s t u : State} {l : LaneNo}

/-! ### Taking a request -/

theorem taken_iff {f : Frame} : Taken s f u ↔ s.takeFrame f = some u := by
  unfold Taken State.takeFrame
  by_cases hp : s.power = false
  · simp [hp]
  · by_cases hr : s.store.restartTag = none
    · simp only [hp, hr, Option.isSome_none, Bool.false_eq_true]
      cases hq : s.link.rxBuffer with
      | nil => simp [eq_comm]
      | cons g gs =>
        by_cases hg : g = f
        · subst hg; simp [eq_comm]
        · simp [hg]
    · have : s.store.restartTag.isSome = true := Option.isSome_iff_ne_none.mpr hr
      simp [hr, this]

/-- Taking a frame changes nothing but the receive buffer. -/
theorem Taken.fields {f : Frame} (h : Taken s f u) : ∃ rest, u = { s with link := { s.link with rxBuffer := rest } } := by
  rcases h.2.2 with ⟨h, rfl⟩ | ⟨rest, -, rfl⟩
  · exact ⟨u.link.rxBuffer, rfl⟩
  · exact ⟨rest, rfl⟩

/-- A request whose body reads as `x` is answered by its rule. -/
theorem request_answered {α : Type} {kind : Nat} {tag : Byte} {body : List Byte} {p : Reader α} {rule : State → α → Ans}
    {x : α} (h : Asked s (BitVec.ofNat 8 kind) tag body u) (hx : readAll p body = some x) :
    request s kind tag body p rule =
      .next ((rule u x).s.reply tag (BitVec.ofNat 8 kind) (rule u x).status (rule u x).data) := by
  unfold request requestLate
  rw [taken_iff.mp h.2]
  simp only [if_neg h.1, hx]

/-- A request taken with the tag 0 or with a body that does not fit is answered MALFORMED. -/
theorem request_malformed {α : Type} {kind : Nat} {tag : Byte} {body : List Byte} {p : Reader α}
    {rule : State → α → Ans} (h : Taken s ⟨tag, BitVec.ofNat 8 kind, body⟩ u) (hx : tag = 0 ∨ readAll p body = none) :
    request s kind tag body p rule = .next (u.reply tag (BitVec.ofNat 8 kind) .malformed []) := by
  unfold request requestLate
  rw [taken_iff.mp h]
  rcases hx with hx | hx
  · simp only [if_pos hx]
  · simp only [hx, ite_self]

/-- What a request can come to: it is not taken, or refused as malformed, or answered by its rule. -/
theorem request_cases {α : Type} (s : State) (kind : Nat) (tag : Byte) (body : List Byte) (p : Reader α)
    (rule : State → α → Ans) :
    ((∀ u, ¬Taken s ⟨tag, BitVec.ofNat 8 kind, body⟩ u) ∧ request s kind tag body p rule = .next s) ∨
      ∃ u, Taken s ⟨tag, BitVec.ofNat 8 kind, body⟩ u ∧
        ((tag = 0 ∨ readAll p body = none) ∧
            request s kind tag body p rule = .next (u.reply tag (BitVec.ofNat 8 kind) .malformed []) ∨
          ∃ x, readAll p body = some x ∧ request s kind tag body p rule =
            .next ((rule u x).s.reply tag (BitVec.ofNat 8 kind) (rule u x).status (rule u x).data)) := by
  cases ht : s.takeFrame ⟨tag, BitVec.ofNat 8 kind, body⟩ with
  | none =>
    refine .inl ⟨fun u hu => ?_, by simp [request, requestLate, ht]⟩
    rw [taken_iff.mp hu] at ht; cases ht
  | some u =>
    have hu := taken_iff.mpr ht
    refine .inr ⟨u, hu, ?_⟩
    by_cases h0 : tag = 0
    · exact .inl ⟨.inl h0, request_malformed hu (.inl h0)⟩
    · cases hx : readAll p body with
      | none => exact .inl ⟨.inr rfl, request_malformed hu (.inr hx)⟩
      | some x => exact .inr ⟨x, rfl, request_answered ⟨h0, hu⟩ hx⟩

/-! ### Rules of one lane -/

theorem withLane_work {P : State → Prop} (n : Nat) (rule : LaneNo → Ans) (h0 : P t) (h : ∀ l, P (rule l).s) :
    P (withLane t n rule).s := by
  unfold withLane
  split
  · exact h0
  · exact h _

/-- The rule of a request that names a lane is work of that lane, and of none where the number names none. -/
def LaneRule (n : Nat) (s : State) (a : Ans) : Prop :=
  match laneOf n with
  | some l => Work l s a.s
  | none => a.s = s

theorem LaneRule.act {n : Nat} {a : Ans} (hb : Bounds s) (h : LaneRule n s a) : Act s a.s := by
  unfold LaneRule at h
  split at h
  · exact h.act
  · rw [h]; exact .refl hb

theorem withLane_rule {n : Nat} {rule : LaneNo → Ans} (h : ∀ l, Work l s (rule l).s) : LaneRule n s (withLane s n rule) := by
  unfold LaneRule withLane
  split
  · next l hl => simp only [hl]; exact h l
  · next hl => simp only [hl]; rfl

theorem Work.okIf {c : Prop} [Decidable c] {a b : Ans} (h : Work l s a.s) (k : Work l s b.s) :
    Work l s (if c then a else b).s := by
  split
  · exact h
  · exact k

theorem takenRead_work {rule : Unit → Ans} (h : Work l s t) (k : Work l s (rule ()).s) : Work l s (takenRead t l rule).s := by
  unfold takenRead
  exact .okIf k h

variable (hb : Bounds s)
include hb

theorem ruleOpenLane_work (n : Nat) : LaneRule n s (ruleOpenLane s n) :=
  withLane_rule fun l => .okIf (.refl hb) (.okIf (Work.refl hb).openLane
    (Work.modLane (l := l) (.refl hb) fun x => { x with closePending := false }))

theorem ruleCloseLane_work (n : Nat) : LaneRule n s (ruleCloseLane s n) :=
  withLane_rule fun _ => (Work.refl hb).closeLane

theorem ruleGetLane_work (n : Nat) : LaneRule n s (ruleGetLane s n) :=
  withLane_rule fun _ => (Work.refl hb).modVisit _

theorem ruleKeyed_work (r : Nat × Nat) : LaneRule r.1 s (ruleKeyed s r) :=
  withLane_rule fun l => by
    have r1 : Work l s s := .refl hb
    refine .okIf r1 ?_
    split
    · exact (r1.modVisit _).tryMatch
    · exact (r1.modVisit _).tryMatch
    · split
      · exact r1.modVisit _
      · exact r1.modVisit _
      · exact (r1.modVisit _).setMatch _
      · exact r1
      · exact r1
    · exact r1

theorem ruleAnswer_work (r : AnswerReq) : LaneRule r.lane s (ruleAnswer s r) :=
  withLane_rule fun l => by
    have r1 : Work l s s := .refl hb
    refine .okIf r1 ?_
    split
    · split
      · exact r1.endLookup.claimBooking _
      · exact r1.noBooking _
    · exact r1

theorem ruleForce_work (r : Nat × Option Input × Bool) : LaneRule r.1 s (ruleForce s r) :=
  withLane_rule fun l => by
    unfold withInput
    split
    · exact .refl hb
    · exact (Work.refl hb).setForce _ _

theorem ruleUnforce_work (r : Nat × Option Input) : LaneRule r.1 s (ruleUnforce s r) :=
  withLane_rule fun l => by
    unfold withInput
    split
    · exact .refl hb
    · exact (Work.refl hb).setForce _ _

theorem rulePlate_work (r : Nat × Text) : LaneRule r.1 s (rulePlate s r) :=
  withLane_rule fun _ => .okIf (.refl hb) (takenRead_work (.refl hb)
    (.okIf (.refl hb) (Work.refl hb |>.recordPlate _).settle))

theorem ruleIdRead_work (r : IdReq) : LaneRule r.lane s (ruleIdRead s r) :=
  withLane_rule fun l => .okIf (.refl hb) (takenRead_work (.refl hb) (by
    refine Work.settle ?_
    split
    · exact (Work.refl hb).takeId _ _
    · exact (Work.refl hb).misread _))

theorem sealBefore_work (l : LaneNo) (p : Option Pos) (x : SeenSeal) : Work l s (sealBefore s l p x).s := by
  have r1 : Work l s s := .refl hb
  unfold sealBefore
  split
  · split
    · exact r1
    · exact (r1.setSeen _ _).countDuplicate
    · exact (r1.makePos _).setSeen _ _
  · split
    · exact r1
    · exact (r1.modVisit _).countDuplicate
    · exact r1.modVisit _

theorem sealAfter_work (l : LaneNo) (p : Pos) (x : SeenSeal) : Work l s (sealAfter s l p x).s := by
  have r1 : Work l s s := .refl hb
  simp only [sealAfter]
  split
  · exact r1
  · exact (r1.setSeen _ _).countDuplicate
  · exact .okIf (r1.setSeen _ _) ((r1.setSeen _ _).evalSeal _ _).settle

theorem ruleSealRead_work (r : SealReq) : LaneRule r.lane s (ruleSealRead s r) :=
  withLane_rule fun l => .okIf (.refl hb) (takenRead_work (.refl hb) (by
    refine .okIf ?_ (sealBefore_work hb ..)
    split
    · exact .refl hb
    · exact .okIf (sealAfter_work hb ..) (.refl hb)))

theorem placeSurvey_work (l : LaneNo) (p : Pos) (sv : Survey) : Work l s (placeSurvey s l p sv).s := by
  have r1 : Work l s s := .refl hb
  simp only [placeSurvey]
  refine .okIf ?_ ((r1.modVisit _).holdSurvey _ _)
  split
  · exact r1
  · exact ((r1.modVisit _).holdSurvey _ _).settle
  · exact ((r1.modVisit _).gradeSurvey _ _).settle

theorem ruleSurvey_work (r : SurveyReq) : LaneRule r.lane s (ruleSurvey s r) :=
  withLane_rule fun _ => .okIf (.refl hb) (.okIf (.refl hb) (takenRead_work (.refl hb)
    (.okIf (.refl hb) (placeSurvey_work hb ..))))

theorem ruleOverride_work (r : Nat × CheckName × Bool) : LaneRule r.1 s (ruleOverride s r) :=
  withLane_rule fun l => .okIf (.refl hb) (by
    have r1 : Work l s (s.setOverride l r.2.1 (some r.2.2)) := (Work.refl hb).setOverride _ _
    have ho : Ours l s ((s.setOverride l r.2.1 (some r.2.2)).entriesOf l r.2.1) := by
      refine Bounds.ours hb ?_
      intro e he
      simp only [Entry.ofVisit, Bool.and_eq_true, beq_iff_eq] at he
      exact he.1.1
    exact (r1.resolveAll _ _ _ ho).returnLane.settle)

theorem ruleUnoverride_work (r : Nat × CheckName) : LaneRule r.1 s (ruleUnoverride s r) :=
  withLane_rule fun l => .okIf (.refl hb) (by
    have r1 : Work l s s := .refl hb
    split
    · exact r1
    · exact ((r1.setOverride _ _).evaluateFreed _).settle)

theorem ruleSignText_work (r : Nat × Text) : LaneRule r.1 s (ruleSignText s r) :=
  withLane_rule fun _ => .okIf (.refl hb) (.okIf (.refl hb) ((Work.refl hb).joinText _))

theorem ruleGetSign_work (n : Nat) : LaneRule n s (ruleGetSign s n) := withLane_rule fun _ => .refl hb

theorem ruleResolveLane_work (n : Nat) : LaneRule n s (ruleResolveLane s n) :=
  withLane_rule fun l => by
    have ho : Ours l s (s.openOf l) := by
      refine Bounds.ours hb ?_
      intro e he
      simp only [Bool.and_eq_true, beq_iff_eq] at he
      exact he.2
    exact ((Work.refl hb).clearUnrecorded.resolveAll _ _ _ ho).follow

/-! ### Rules of the part -/

omit hb in
theorem Act.okIf {c : Prop} [Decidable c] {a b : Ans} (h : Act s a.s) (k : Act s b.s) : Act s (if c then a else b).s := by
  split
  · exact h
  · exact k

theorem ruleResetLane_act (n : Nat) : Act s (ruleResetLane s n).s := by
  unfold ruleResetLane withLane
  split
  · exact .refl hb
  · exact .okIf (.refl hb) ((Act.refl hb).resetLane _)

omit hb in
theorem BookUnit.create_kept (b : BookUnit) (k : Booking) : WindowsKept b (b.create k) :=
  (WindowsKept.same (b := b) (c := { b with table := b.table ++ [k] }) rfl).addBooked _ _

omit hb in
theorem BookUnit.reclaim_kept {b c : BookUnit} (h : b.reclaim = some c) : WindowsKept b c := by
  simp only [BookUnit.reclaim] at h
  split at h
  · cases h
  · next n rest hf =>
    have r : WindowsKept b { b with table := b.table.filter fun k => k.number ≠ n, final := rest } := .same rfl
    split at h
    · split at h
      · cases h; exact r.modWindow _ _
      · cases h; exact r
    · cases h; exact r

omit hb in
theorem BookUnit.room_kept {b c : BookUnit} (h : b.room = some c) : WindowsKept b c := by
  unfold BookUnit.room at h
  split at h
  · cases h; exact .refl b
  · exact BookUnit.reclaim_kept h

theorem ruleBook_act (r : BookReq) : Act s (ruleBook s r).s := by
  have r1 : Act s s := .refl hb
  unfold ruleBook
  refine .okIf r1 (.okIf r1 (.okIf r1 (.okIf r1 (.okIf r1 (.okIf r1 ?_)))))
  split
  · exact r1
  · next b hr => exact r1.book ((BookUnit.room_kept hr).trans (BookUnit.create_kept ..))

omit hb in
theorem BookUnit.amend_kept (b : BookUnit) (r : AmendReq) : WindowsKept b (b.amend r) := .same rfl

omit hb in
theorem BookUnit.moveTo_kept (b : BookUnit) (k : Booking) (w : Nat) : WindowsKept b (b.moveTo k w) := by
  unfold BookUnit.moveTo
  split
  · exact .refl b
  · exact (((WindowsKept.refl b).subBooked _ _).addBooked _ _).modBooking _ _

omit hb in
theorem Work.amendSeals {s t : State} (h : Work l s t) (n : Nat) : Work l s (t.amendSeals l n) := by
  unfold State.amendSeals
  split
  · exact h.evalSeal _ _
  · exact h

omit hb in
/-- What an AMEND of an IN_LANE booking does at the lane that holds the claim. -/
theorem Act.amendLane (h : Act s t) (r : AmendReq) (k : Booking) : Act s (t.amendLane r k) := by
  unfold State.amendLane
  split
  · next l n _ _ =>
    refine .ite (h.work l (Work.settle ?_)) h
    split
    · exact (h.start l).amendSeals _
    · exact h.start l
  · exact h

theorem ruleAmend_act (r : AmendReq) : Act s (ruleAmend s r).s := by
  have r1 : Act s s := .refl hb
  unfold ruleAmend
  split
  · exact r1
  · refine .okIf r1 (.okIf r1 ?_)
    split
    · exact r1
    · exact r1
    · exact r1
    · exact .okIf r1 ((r1.book (BookUnit.amend_kept ..)).amendLane _ _)
    · split
      · exact r1.book (BookUnit.amend_kept ..)
      · split
        · exact r1
        · exact r1.book ((BookUnit.moveTo_kept ..).trans (BookUnit.amend_kept ..))

theorem ruleCancel_act (n : Nat) : Act s (ruleCancel s n).s := by
  have r1 : Act s s := .refl hb
  unfold ruleCancel
  split
  · exact r1
  · exact .okIf (r1.book ((((WindowsKept.refl s.book).subBooked _ _).modBooking _ _).finalise _)) r1

omit hb in
theorem BookUnit.setCapacity_kept (b : BookUnit) (f l v : Nat) : WindowsKept b (b.setCapacity f l v) := by
  refine ⟨by simp [BookUnit.setCapacity], fun h x hx => ?_⟩
  obtain ⟨i, hi, rfl⟩ := List.getElem_of_mem hx
  simp only [BookUnit.setCapacity, List.getElem_mapIdx]
  split
  · exact Window.evalOver_right _
  · exact h _ (List.getElem_mem _)

theorem ruleSetCapacity_act (r : CapacityReq) : Act s (ruleSetCapacity s r).s := by
  have r1 : Act s s := .refl hb
  unfold ruleSetCapacity
  exact .okIf r1 (r1.book (BookUnit.setCapacity_kept ..))

theorem ruleSetClock_act (r : ClockReq) : Act s (ruleSetClock s r).s := by
  have r1 : Act s s := .refl hb
  have r2 : Act s (s.setTime r) := r1.setTime _ _
  have r3 : Act s ((s.rollover r.day).setTime r).expiryTest := ((r1.rollover r.day).setTime _ _).expiryTest
  have ok : ∀ {x : State}, Act s x → Act s (okay x).s := fun h => h
  unfold ruleSetClock
  exact .okIf r1 (.okIf (ok r2.expiryTest) (.okIf r1 (.okIf (.okIf (ok r2.expiryTest) (ok r2)) (ok r3))))

omit hb in
theorem Act.forgetBay (h : Act s t) (k : BayHold) (f : Visit → Visit) : Act s (t.forgetBay k f) := by
  unfold State.forgetBay
  exact .ite (h.modVisit _ _) h

theorem ruleBayRelease_act (r : Nat × Option Nat) : Act s (ruleBayRelease s r).s := by
  have r1 : Act s s := .refl hb
  unfold ruleBayRelease
  refine .okIf r1 ?_
  split
  · exact r1
  · exact .okIf r1 ((r1.setPool (p := { s.pool with bays := _ }) List.length_set hb.waiting).forgetBay _ _).serveBays

omit hb in
theorem removeWaiting_length (n : Nat) (hs : List BayHold) : (removeWaiting n hs).length ≤ hs.length := by
  induction hs with
  | nil => exact Nat.le_refl _
  | cons h hs ih =>
    unfold removeWaiting
    split
    · exact Nat.le_succ _
    · exact Nat.succ_le_succ ih

theorem ruleWaitRemove_act (n : Nat) : Act s (ruleWaitRemove s n).s := by
  have r1 : Act s s := .refl hb
  unfold ruleWaitRemove
  refine .okIf r1 ?_
  split
  · exact r1
  · exact (r1.setPool (p := { s.pool with waiting := removeWaiting n s.pool.waiting }) rfl
      (Nat.le_trans (removeWaiting_length _ _) hb.waiting)).forgetBay _ _

/-- The entry of a number is resolved as work of the lane it names. -/
theorem Act.resolveEntry (e : Entry) (o : Resolution) : Act s (s.resolveEntry e o) := by
  cases he : e.lane with
  | none =>
    simp only [State.resolveEntry, he]
    exact ((Work.refl (l := .l1) hb).modEntry e.number (fun x => x.resolved o) fun _ => ⟨rfl, rfl⟩).act
  | some l => exact ((Work.refl hb).resolveEntry e o he).act

theorem ruleResolve_act (r : Nat × Resolution) : Act s (ruleResolve s r).s := by
  have r1 : Act s s := .refl hb
  unfold ruleResolve
  refine .okIf r1 ?_
  split
  · exact r1
  · exact .okIf r1 ((Act.resolveEntry hb _ _).follow _)

theorem ruleRetryAgain_act (n : Nat) : Act s (ruleRetryAgain s n).s := by
  have r1 : Act s s := .refl hb
  unfold ruleRetryAgain
  split
  · exact r1
  · next e _ =>
    refine .okIf r1 ?_
    have h1 : ∀ l, Work l s (s.modEntry n Entry.renewed) := fun l =>
      (Work.refl hb).modEntry n Entry.renewed fun _ => ⟨rfl, rfl⟩
    refine Act.follow ?_ _
    split
    · next l _ => exact ((h1 l).rearm.rearmRetry _).act
    · exact ((h1 .l1).rearmRetry _).act

theorem ruleGateShut_act : Act s (ruleGateShut s ()).s := by
  have r1 : Act s s := .refl hb
  unfold ruleGateShut
  split
  · exact r1.drain
  · exact r1
  · exact r1

theorem ruleGateOpen_act : Act s (ruleGateOpen s ()).s := by
  have r1 : Act s s := .refl hb
  unfold ruleGateOpen
  split
  · exact .okIf ((r1.eachLane _).changeGate _ _) r1
  · exact r1
  · exact (r1.eachLane _).changeGate _ _

/-- An entry of the table whose retry timer ends: its retry step and what follows. -/
theorem Act.retryTimer {n : Nat} {e : Entry} (he : s.entry n = some e) : Act s ((s.retryStep e).follow e.lane) := by
  have he' : s.entry e.number = some e := by rw [State.entry_number he]; exact he
  refine Act.follow ?_ _
  cases hl : e.lane with
  | none =>
    simp only [State.retryStep, hl]
    exact (((Work.refl (l := .l1) hb).modEntry e.number (fun x => { x with left := none })
      fun _ => ⟨rfl, rfl⟩).rearmRetry _).act
  | some l => exact (Work.retryStep hb he' hl).act

end Sys2Proof.Machine
end

