-- ==== Sys2Proof/WellFormed.lean ====
section
/-! DEFINITION. Which commands can come about: the checks on a command's operands. -/

namespace Sys2Proof

/-- A request's body is one a frame can carry (R168: 0 to 500 bytes). -/
def bodyFits (body : List Byte) : Bool := body.length ≤ Config.bodyMax

/-- The command is one that can come about: bodies of at most 500 bytes (R168); UNKNOWN_KIND only for tag 0 or a kind
outside the catalogue (R170); at least one byte received (R169, R185); a READY count of 1 to 8 (R129); an entry number
of 1 to 65535 (R154). -/
def Instr.wellFormed : Instr → Bool
  | .powerOnReset | .frameGapTimeout | .replySend | .noticeSend | .gateClockSecond | .saveComplete | .powerLoss => true
  | .frameReceived bytes => !bytes.isEmpty
  | .unknownKind tag kind body => bodyFits body && (tag == 0 || (requestOf kind.toNat tag body).isNone)
  | .book _ body | .amend _ body | .cancel _ body | .getBooking _ body | .getWindows _ body | .setCapacity _ body
  | .setClock _ body | .getClock _ body | .openLane _ body | .closeLane _ body | .resetLane _ body | .getLane _ body
  | .keyedBooking _ body | .lookupAnswer _ body | .forceLine _ body | .unforceLine _ body | .plateRead _ body
  | .idRead _ body | .sealRead _ body | .survey _ body | .holdAdd _ body | .holdRemove _ body | .getHolds _ body
  | .override _ body | .unoverride _ body | .signText _ body | .getSign _ body | .resolve _ body | .resolveLane _ body
  | .retryAgain _ body | .clearResolved _ body | .getExceptions _ body | .bayRelease _ body | .waitRemove _ body
  | .getBays _ body | .set _ body | .get _ body | .saveSettings _ body | .loadSettings _ body
  | .defaultSettings _ body | .gateOpen _ body | .gateShut _ body | .restart _ body | .getCounters _ body
  | .identify _ body => bodyFits body
  | .rawLevelChange _ _ _ | .settleExpiry _ _ | .loopStuckExpiry _ _ | .idSettleExpiry _ | .lookupTimeout _
  | .abandonExpiry _ | .sealWaitExpiry _ | .surveyWaitExpiry _ | .signFrameGapTimeout _ | .stallTimerExpiry _
  | .raiseTimerExpiry _ | .lowerTimerExpiry _ => true
  | .ready _ count => 1 ≤ count.toNat && count.toNat ≤ 8
  | .retryTimerExpiry entry => 1 ≤ entry && entry ≤ 65535
  | .signFrameReceived _ bytes => !bytes.isEmpty

end Sys2Proof
end

