-- ==== Sys2Proof/Tests/Slice0.lean ====
section
/-! SUPPORT. Tests: the well-formedness checks, small runs of each family of commands against the manual's worked examples, and for
each statement with hypotheses a concrete state and operands that meet them, clause by clause. -/

namespace Sys2Proof.Tests
open Sys2Proof Sys2Proof.Machine

/-! ### Helpers -/

/-- The state a command leads to. -/
def after (i : Instr) (s : State) : State := match exec i s with | .next t => t | _ => s

/-- The message made ready last. -/
def lastOut (s : State) : Option OutMsg := s.link.outbox.getLast?

/-- The status of a reply made ready last. -/
def status (i : Instr) (s : State) : Option Status :=
  match lastOut (after i s) with | some (.reply r) => some r.status | _ => none

/-- The fields of a reply made ready last. -/
def data (i : Instr) (s : State) : List Byte := match lastOut (after i s) with | some (.reply r) => r.data | _ => []

/-- An open gate at minute 600 of day 1, with nothing ready. -/
def base : State :=
  { State.reset with clock := ⟨1, 600, 0, true⟩, gate := .opened, link := { State.reset.link with outbox := [] } }

/-- Lane 1 of it changed. -/
def on1 (f : Lane → Lane) : State := base.modLane .l1 f

/-- Lane 1 of it in a state with a visit. -/
def inLane (st : LaneState) (v : Visit) : State := on1 fun x => { x with state := st, visit := some v }

/-- A visit just opened. -/
def v5 : Visit := Visit.opening 5

/-- A valid container ID of the manual (R70's example): TKLU3805418. -/
def cid : Text := [84, 75, 76, 85, 51, 56, 48, 53, 52, 49, 56]

/-- A plate AB12. -/
def plate : Text := [65, 66, 49, 50]

/-- A full box brought in. -/
def box : Move := ⟨.deliverFull, .l20, some cid, [[65, 49]], 0, [67, 52], 12, false⟩

/-- A booking in a state and a window. -/
def bk (n : Nat) (st : BookingState) (w : Nat) : Booking :=
  ⟨n, st, w, some plate, [box], 1, if st = .inLane then some (.l1, 5) else none, false, none⟩

/-- The part with a booking table. -/
def withBook (ks : List Booking) (fin : List Nat) (f : Nat → Window → Window) : State :=
  { base with book := ⟨ks, fin, base.book.windows.mapIdx f⟩ }

/-- Nothing stands in the way of a request. -/
abbrev CanAsk (s : State) : Prop := s.power = true ∧ s.store.restartTag = none ∧ s.link.rxBuffer = []

/-- Then a request of any kind and body can be taken. -/
theorem can_ask {s : State} {k : Byte} {body : List Byte} (h : CanAsk s) : Asked s k 7 body s :=
  ⟨by decide, h.1, h.2.1, .inl ⟨h.2.2, rfl⟩⟩

/-- A request can be taken when nothing waits. -/
theorem asked {s : State} {k tag : Byte} {body : List Byte} (h1 : s.power = true) (h2 : s.store.restartTag = none)
    (h3 : s.link.rxBuffer = []) (h4 : tag ≠ 0) : Asked s k tag body s :=
  ⟨h4, h1, h2, .inl ⟨h3, rfl⟩⟩

/-- A request frame first in the receive buffer can be taken. -/
theorem asked_buffered : Asked { base with link := { base.link with rxBuffer := [⟨7, 0x08, []⟩] } } 0x08 7 [] base :=
  ⟨by decide, rfl, rfl, .inr ⟨[], rfl, rfl⟩⟩

theorem asked_base {k : Byte} {body : List Byte} : Asked base k 7 body base := asked rfl rfl rfl (by decide)

/-! ### Well-formed commands -/

theorem test_refuses_no_bytes : (Instr.frameReceived []).wellFormed = false ∧ (Instr.frameReceived [1]).wellFormed = true := by
  decide
theorem test_refuses_known_kind : (Instr.unknownKind 1 0x01 []).wellFormed = false ∧
    (Instr.unknownKind 1 0x2E []).wellFormed = true ∧ (Instr.unknownKind 0 0x01 []).wellFormed = true := by decide
theorem test_refuses_long_body : (Instr.book 1 (List.replicate 501 0)).wellFormed = false ∧
    (Instr.book 1 (List.replicate 500 0)).wellFormed = true := by
  constructor <;> simp only [Instr.wellFormed, bodyFits, Config.bodyMax, List.length_replicate] <;> decide
theorem test_refuses_long_unknown : (Instr.unknownKind 1 0x2E (List.replicate 501 0)).wellFormed = false := by
  simp only [Instr.wellFormed, bodyFits, Config.bodyMax, List.length_replicate]; decide
theorem test_refuses_ready_counts : (Instr.ready .l1 0).wellFormed = false ∧ (Instr.ready .l1 9).wellFormed = false ∧
    (Instr.ready .l1 1).wellFormed = true ∧ (Instr.ready .l1 8).wellFormed = true := by decide
theorem test_refuses_entry_numbers : (Instr.retryTimerExpiry 0).wellFormed = false ∧
    (Instr.retryTimerExpiry 65536).wellFormed = false ∧ (Instr.retryTimerExpiry 65535).wellFormed = true := by decide
theorem test_refuses_no_sign_bytes : (Instr.signFrameReceived .l1 []).wellFormed = false := by decide
theorem test_no_row_has_bits : decodeTableWord 8 1 = none ∧ State.reset.withFetchWord 8 1 = State.reset := by decide

/-! ### Witnesses: the queue, resets, power -/

theorem wit_EmptyQueueGoesOn : State.reset.pending = [] ∧ State.reset.power = true ∧
    State.reset.nextAct = some .noticeSend ∧ base.pending = [] ∧ base.nextAct = none ∧ (base.phase + 1) % 10 ≠ 0 ∧
    { base with phase := 9 }.nextAct = none ∧ ({ base with phase := 9 }.phase + 1) % 100 ≠ 0 ∧
    { base with phase := 99 }.nextAct = none ∧ { base with power := false }.power = false := by decide
theorem wit_PowerOnReset : (after .powerOnReset { base with store := { base.store with image := .whole .default } }).store.image =
      .whole .default ∧ (after .powerOnReset base).store.image = .neverWritten ∧ base.store.saving = none := by decide
theorem wit_PowerLoss : base.power = true ∧ base.store.saving = none ∧
    { base with store := { base.store with saving := some ⟨.default, 1, 4⟩ } }.store.saving = some ⟨.default, 1, 4⟩ := by
  decide
theorem wit_PowerLoss_unpowered : { base with power := false }.power = false ∧ Instr.gateClockSecond ≠ .powerOnReset ∧
    Instr.rawLevelChange .l1 .stop true ≠ .powerOnReset := by decide
theorem wit_Restart : Asked base 0x2A 7 [] base ∧ base.store.saving = none ∧
    ∃ s, Asked s 0x2A 7 [] s ∧ s.store.saving.isSome = true :=
  ⟨asked_base, rfl, { base with store := { base.store with saving := some ⟨.default, 1, 4⟩ } },
    asked rfl rfl rfl (by decide), rfl⟩
theorem wit_bounds : Bounds base := by
  refine ⟨by decide, ?_, by decide, ?_, by decide, by decide, by decide, by decide⟩
  · intro w hw
    have := List.eq_of_mem_replicate hw
    subst this; rfl
  · simp [base, State.reset]
theorem wit_EveryStepKeepsSound : Sound base := by
  refine ⟨wit_bounds, by decide, by decide, ⟨?_, ?_, ?_⟩, by decide, by intro l; cases l <;> decide,
    by intro l; cases l <;> decide, by decide⟩
  · constructor <;> first | decide | (intro l i; cases l <;> cases i <;> decide) | (intro k; cases k <;> decide)
  · intro w hw; cases hw
  · intro w hw; cases hw
theorem wit_LanesAreApart : laneConcerned (.openLane 7 [1]) = some .l1 ∧ laneConcerned (.abandonExpiry .l8) = some .l8 ∧
    Bounds base ∧ ∃ t, exec (.openLane 7 [1]) base = .next t :=
  ⟨rfl, rfl, wit_bounds, _, rfl⟩
theorem wit_OneReplyToEachRequest : Bounds base ∧ Taken base ⟨7, 0x08, []⟩ base ∧ (0x08 : Byte) ≠ 0x25 ∧
    (0x08 : Byte) ≠ 0x2A ∧ Taken base ⟨0, 0xFF, []⟩ base :=
  ⟨wit_bounds, asked_base.2, by decide, by decide, rfl, rfl, .inl ⟨rfl, rfl⟩⟩
theorem wit_FramesRoundTrip : (0xA5 : Byte) ∉ [(0 : Byte), 0xA4] ∧
    ∀ f ∈ [(⟨7, 8, []⟩ : Frame), ⟨0, 0xA5, [0xA5]⟩], f.body.length ≤ 500 := by decide
theorem wit_BytesInPieces : base.power = true ∧ receive base.link.rxPart = ⟨[], 0, base.link.rxPart⟩ ∧
    receive [0xA5, 2] = ⟨[], 0, [0xA5, 2]⟩ ∧ ∃ t, exec (.frameReceived [0xA5]) base = .next t :=
  ⟨rfl, by decide, by decide, _, rfl⟩

/-! ### Witnesses: the command link -/

theorem wit_FramesAreReceived : base.power = true ∧ base.link.rxPart = [] ∧ base.link.badFrames ≤ 65535 ∧
    ([] : List Byte).length ≤ 500 ∧ (1 : Byte) ≠ 0xA5 ∧ (1 : Byte).toNat + 256 * (0 : Byte).toNat < 2 ∧
    502 < (0xF7 : Byte).toNat + 256 * (1 : Byte).toNat ∧
    ([0, 0] : List Byte) ≠ u16 (crc16 (framePayload 1 8 [])).toNat ∧
    (0xA5 : Byte) ∉ framePayload 1 8 [] ++ ([0, 0] : List Byte) := by decide +kernel
theorem wit_FramesAreReceived_full : 2048 < 5 * (7 + 500) := by decide
theorem wit_FramesAreReceived_gaps : base.power = true ∧ base.link.rxPart = [] ∧
    { base with link := { base.link with rxPart := [0xA5, 2] } }.link.rxPart = [0xA5, 2] ∧
    (0xA5 : Byte) ∉ ([2] : List Byte) ∧ (base.lane .l1).sign.rx = [] ∧
    ((on1 fun x => { x with sign := { x.sign with rx := [0xA5, 2] } }).lane .l1).sign.rx = [0xA5, 2] := by decide
theorem wit_FramesThatAreNoRequests : Taken base ⟨0, 0x01, []⟩ base ∧ Taken base ⟨7, 0x2E, []⟩ base ∧
    0x2D < (0x2E : Byte).toNat ∧ readAll readBook [] = none ∧ readAll readAmend [] = none ∧ readAll readU32 [0] = none ∧
    readAll (readPair readU8 readU8) [0] = none ∧ readAll readCapacity [] = none ∧ readAll readClock [] = none ∧
    readAll readNothing [0] = none ∧ readAll readU8 [0, 0] = none ∧ readAll (readPair readU8 readU32) [1] = none ∧
    readAll readAnswer [1, 0, 0, 2] = none ∧ readAll readForce [1, 8, 0] = none ∧ readAll readUnforce [1, 8] = none ∧
    readAll (readPair readU8 readText) [1, 2, 65] = none ∧ readAll readId [1, 4, 0] = none ∧
    readAll readSeal [1, 0, 0, 2] = none ∧ readAll readSurvey [1, 0, 1] = none ∧ readAll readHoldAdd [2, 0, 0, 0] = none ∧
    readAll readHoldRemove [0] = none ∧ readAll readOverride [1, 10, 0] = none ∧ readAll readUnoverride [1, 10] = none ∧
    readAll (readPair readU8 (readOpt readU16)) [1, 2] = none ∧ readAll readU16 [0] = none ∧
    readAll readResolve [1, 0, 6] = none ∧ readAll readSet [1, 0, 0] = none ∧ readAll (readEnum [false, true]) [2] = none :=
  ⟨⟨rfl, rfl, .inl ⟨rfl, rfl⟩⟩, ⟨rfl, rfl, .inl ⟨rfl, rfl⟩⟩, by decide, rfl, rfl, rfl, rfl, rfl, rfl, rfl, rfl, rfl, rfl, rfl, rfl,
    rfl, rfl, rfl, rfl, rfl, rfl, rfl, rfl, rfl, rfl, rfl, rfl, rfl⟩
theorem wit_FramesNameCommands : (7 : Byte) ≠ 0 ∧ 0x2D < (0x2E : Byte).toNat ∧ 0x2D < (0xFF : Byte).toNat ∧
    base.power = true ∧ base.pending = [] ∧ base.dueTimers = [] ∧ base.link.outbox = [] ∧ base.store.restartTag = none ∧
    ({ base with link := { base.link with rxBuffer := [⟨7, 0x08, []⟩] } }).dueTimers = [] ∧
    (step { base with link := { base.link with rxBuffer := [⟨7, 0x08, []⟩] } } = .next (after (.getClock 7 []) base)) = True := by
  refine ⟨by decide, by decide, by decide, rfl, rfl, by decide, rfl, rfl, by decide, eq_true rfl⟩

/-- A RESTART waits for a settings write, the save's reply ready behind its notice or alone. -/
def waits_ (saving : Bool) (out : List OutMsg) : State :=
  { base with
    store := { base.store with saving := if saving then some ⟨.default, 7, 1⟩ else none, restartTag := some 9 }
    link := { base.link with outbox := out } }

theorem wit_MessagesLeaveInOrder :
    let r : OutMsg := .reply ⟨7, 0xA5, .ok, [0, 0]⟩
    State.reset.power = true ∧ State.reset.link.outbox = .notice .settingsRestored :: [] ∧
    (after (.getClock 7 []) base).link.outbox = .reply ⟨7, 0x88, .ok, [1, 0, 0x58, 2, 0, 1]⟩ :: [] ∧
    base.link.outbox = [] ∧ base.store.restartTag = none ∧ (waits_ true [r]).store.saving ≠ none ∧
    (waits_ false [r]).store.saving = none ∧ (waits_ false [r]).store.restartTag = some 9 ∧ (9 : Byte) ≠ 0 ∧
    (waits_ false [r, r]).link.outbox = r :: [r] ∧
    (after .replySend (waits_ false [r, r])).store.restartTag = some 9 ∧
    (after .replySend (waits_ false [r])).store.restartTag = none := by decide +kernel

/-! ### Witnesses: bookings and windows -/

/-- Books with a booking in every state. -/
def books : BookUnit :=
  ⟨[bk 1 .opened 5, bk 2 .inLane 0, bk 3 .admitted 7, bk 4 .cancelled 95, bk 5 .noShow 1], [4, 3, 5],
    base.book.windows.mapIdx fun i w => { w with
      booked := if i = 5 ∨ i = 0 then 1 else 0, admitted := if i = 7 then 1 else 0, expired := decide (i = 1) }⟩

/-- The part with these books. -/
def sBooks : State := { base with book := books }

theorem books_flags : books.overFlagsRight := by
  show ∀ w ∈ books.windows, w.overFlag = decide (w.capacity < w.booked + w.admitted)
  decide +kernel
theorem books_balance : books.Balanced := by
  refine ⟨by decide, by decide, by decide, by decide, ?_, by decide, by decide, by decide, books_flags⟩
  intro n
  simp [books, bk, BookingState.isFinal]
  omega
/-- The visit that holds booking 2. -/
def holder : Visit := { v5 with matchState := .claimed, claimed := some 2 }
/-- The part with these books, and that visit in lane 1. -/
def sHeld : State := { inLane .checking holder with book := books }
theorem sHeld_visit (l : LaneNo) : sHeld.visit l = if l = .l1 then some holder else none := by cases l <;> decide
theorem wit_BooksBalance : Sound sHeld ∧ Booked sHeld ∧ ∃ t, step sHeld = .next t := by
  have b := wit_bounds
  refine ⟨⟨⟨by decide, books_flags, b.entries, b.ascending, b.below, b.waiting, b.notices, b.lost⟩, by decide, by decide,
    wit_EveryStepKeepsSound.store, by decide, by intro l; cases l <;> decide, by intro l; cases l <;> decide, by decide⟩,
    ⟨books_balance, by decide, ?_, ?_, ?_, ?_⟩, _, rfl⟩
  · intro k hk l n hc
    simp only [sHeld, books, bk, List.mem_cons, List.not_mem_nil, or_false] at hk
    obtain rfl | rfl | rfl | rfl | rfl := hk <;> cases hc
    exact ⟨holder, by decide, rfl, rfl⟩
  · intro l v n hv hn
    rw [sHeld_visit] at hv
    split at hv <;> cases hv
    cases hn; subst_vars
    exact ⟨rfl, rfl, bk 2 .inLane 0, by decide, rfl, rfl⟩
  · intro l; cases l <;> decide
  · intro l v h hv
    rw [sHeld_visit] at hv
    split at hv <;> cases hv
    subst_vars; revert h; decide

/-- A BOOK body with one full box. -/
def bookBody (number window : Nat) (plateText c block : Text) (row : Nat) : List Byte :=
  u32 number ++ u8 window ++ [1] ++ textField plateText ++ [1, 0, 0, 1] ++ textField c ++ [1] ++ textField [65, 49] ++
    [0, 1] ++ textField block ++ u8 row ++ [0]

/-- What the tests of BOOK look at: formed, in range, moves, collides, expired, no capacity. -/
def bookTests (s : State) (body : List Byte) : Option (List Bool) :=
  (readAll readBook body).map fun r =>
    let ms := r.moves.map MoveReq.move
    let w := s.book.window r.window
    [r.formed, r.inRange, movesOk ms, s.book.collides r.number ms, w.expired,
      decide (w.capacity < w.booked + w.admitted + (ms.map fun m => if m.length = .l20 then 1 else 2).sum)]

/-- A table of 2048 records and a finalisation order list. -/
def full (k : Booking) (fin : List Nat) : State :=
  { base with book := ⟨List.replicate 2048 k, fin, base.book.windows⟩ }

theorem wit_BookIsTestedAndMade : CanAsk sBooks ∧ sBooks.book.windows.length = 96 ∧
    (∀ w ∈ sBooks.book.windows, w.overFlag = decide (w.capacity < w.booked + w.admitted)) ∧
    bookTests base (bookBody 99999999 95 plate cid [67, 52] 99) = some [true, true, true, false, false, false] ∧
    bookTests base (bookBody 1 0 [65] cid [67, 52] 1) = some [false, true, true, false, false, false] ∧
    bookTests base (bookBody 0 0 plate cid [67, 52] 1) = some [true, false, true, false, false, false] ∧
    bookTests base (bookBody 1 96 plate cid [67, 52] 1) = some [true, false, true, false, false, true] ∧
    bookTests base (u32 1 ++ [0, 0, 0]) = some [true, true, false, false, false, false] ∧
    bookTests sBooks (bookBody 1 0 plate cid [67, 52] 1) = some [true, true, true, true, false, false] ∧
    bookTests (withBook [] [] fun i w => { w with expired := decide (i = 1) }) (bookBody 1 1 plate cid [67, 52] 1) =
      some [true, true, true, false, true, false] ∧
    bookTests (withBook [] [] fun _ w => { w with booked := 30, admitted := 10 }) (bookBody 1 1 plate cid [67, 52] 1) =
      some [true, true, true, false, false, true] := by decide +kernel
theorem wit_BookIsTestedAndMade_full : CanAsk (full (bk 3 .admitted 7) [3]) ∧
    (full (bk 3 .admitted 7) [3]).book.table.length = 2048 ∧ (full (bk 3 .admitted 7) [3]).book.final = 3 :: [] ∧
    (full (bk 3 .inLane 7) []).book.final = [] ∧
    bookTests (full (bk 3 .admitted 7) [3]) (bookBody 1 1 plate cid [67, 52] 1) =
      some [true, true, true, false, false, false] := by
  refine ⟨by decide, by simp only [full, List.length_replicate], rfl, rfl, by decide +kernel⟩

/-- What AMEND's tests look at, for a booking of a state. -/
def amendTests (s : State) (body : List Byte) : Option (List Bool) :=
  (readAll readAmend body).bind fun r => (s.book.find r.number).map fun k =>
    let v := s.book.window (r.window.getD 200)
    [r.formed k.moves, r.inRange, k.state.isFinal, decide (r.window = some k.window), v.expired,
      decide (v.capacity < v.booked + v.admitted + k.units)]

theorem wit_AmendIsTestedAndMade : CanAsk sBooks ∧
    (readAll readAmend (u32 9 ++ [0, 0, 0, 0, 0, 0])).map (fun r => sBooks.book.find r.number) = some none ∧
    amendTests sBooks (u32 1 ++ [0, 0, 0, 0, 0, 0]) = some [false, true, false, false, false, true] ∧
    amendTests sBooks (u32 1 ++ [1, 96, 0, 0, 0, 0, 0]) = some [true, false, false, false, false, true] ∧
    amendTests sBooks (u32 3 ++ [1, 6, 0, 0, 0, 0, 0]) = some [true, true, true, false, false, false] ∧
    amendTests sBooks (u32 2 ++ [1, 6, 0, 0, 0, 0, 0]) = some [true, true, false, false, false, false] ∧
    (readAll readAmend (u32 2 ++ [0, 1, 0, 0, 0, 0, 0])).map (fun r => (r.window, r.plate)) = some (none, some none) ∧
    books.find 2 = some (bk 2 .inLane 0) ∧ sBooks.undecided .l1 (some 5) = false ∧
    amendTests sBooks (u32 1 ++ [1, 5, 0, 0, 0, 0, 0]) = some [true, true, false, true, false, false] ∧
    amendTests sBooks (u32 1 ++ [1, 1, 0, 0, 0, 0, 0]) = some [true, true, false, false, true, false] ∧
    amendTests sBooks (u32 1 ++ [1, 95, 0, 0, 0, 0, 0]) = some [true, true, false, false, false, false] ∧
    amendTests (withBook [bk 1 .opened 5] [] fun i w => if i = 95 then { w with capacity := 0 } else w)
      (u32 1 ++ [1, 95, 0, 0, 0, 0, 0]) = some [true, true, false, false, false, true] := by decide
/-- The visit of booking 2 whose FRONT seal part has a basis and a phase. -/
def amended (b : Basis) (ph : Phase) : Visit :=
  { holder with front := { holder.front with sealPart := { holder.front.sealPart with move := some (1, b), phase := ph } } }
/-- The part with the books and the visit in CHECKING. -/
def heldBy (v : Visit) : State := { inLane .checking v with book := books }
theorem wit_AmendIsTestedAndMade_undecided :
    let body : List Byte := u32 2 ++ [0, 0, 0, 0, 1, 1, 1, 1, 65, 0]
    let v := amended .recorded .opened
    CanAsk (heldBy v) ∧ (∃ r, readAll readAmend body = some r ∧ r.number = 2 ∧ r.window = none ∧ r.seals = some (1, [[65]])) ∧
    amendTests (heldBy v) body = some [true, true, false, false, false, true] ∧
    (bk 2 .inLane 0).claim = some (.l1, v.number) ∧ (heldBy v).visit .l1 = some v ∧ v.claimed = some 2 ∧ v.verdict = none ∧
    (v.pos .front).sealPart.move = some (1, .recorded) ∧ (v.pos .rear).sealPart.move = none ∧
    (v.pos .front).sealPart.final = false ∧
    ((readAll readAmend body).map fun r => (moveAt (r.moves [box]) 1).map (·.seals)) = some (some [[65]]) ∧
    ((amended .expected .opened).pos .front).sealPart.phase = .opened ∧
    { (amended .recorded .closed).front.sealPart with outcome := .mismatch }.final = true :=
  ⟨by decide, ⟨_, rfl, rfl, rfl, rfl⟩, by decide⟩
theorem wit_CancelAndReport : CanAsk sBooks ∧ sBooks.book.windows.length = 96 ∧
    ([0, 1, 3].map fun n => (readAll readU32 (u32 n)).map fun m => (sBooks.book.find m).map (·.state)) =
      [some none, some (some .opened), some (some .admitted)] := by decide
theorem wit_GetWindowsReports : CanAsk base ∧
    ([[0, 47], [48, 95], [95, 95], [0, 48], [1, 0], [95, 96]].map (readAll (readPair readU8 readU8))) =
      [some (0, 47), some (48, 95), some (95, 95), some (0, 48), some (1, 0), some (95, 96)] := by decide
theorem wit_SetCapacitySets : CanAsk base ∧ base.book.windows.length = 96 ∧
    ([[0, 95, 255, 0], [95, 95, 0, 1], [1, 0, 0, 0], [95, 96, 0, 0]].map (readAll readCapacity)) =
      [some ⟨0, 95, 255⟩, some ⟨95, 95, 256⟩, some ⟨1, 0, 0⟩, some ⟨95, 96, 0⟩] := by decide

/-- The part with a reading of the Gate Clock. -/
def at_ (day minute second : Nat) : State := { base with clock := ⟨day, minute, second, true⟩ }

theorem wit_ClockRuns : CanAsk base ∧ State.reset.clock.valid = false ∧ CanAsk { State.reset with link := base.link } ∧
    ([(1, 1440, 0), (1, 0, 60), (0, 0, 0), (3, 0, 0), (1, 601, 0), (1, 600, 0), (2, 0, 59)].map fun c =>
      readAll readClock (u16 c.1 ++ u16 c.2.1 ++ u8 c.2.2)) =
        [some ⟨1, 1440, 0⟩, some ⟨1, 0, 60⟩, some ⟨0, 0, 0⟩, some ⟨3, 0, 0⟩, some ⟨1, 601, 0⟩, some ⟨1, 600, 0⟩, some ⟨2, 0, 59⟩] ∧
    ([at_ 1 600 58, at_ 1 1438 59, at_ 65534 1439 59, at_ 65535 1439 59].map fun s => s.power && s.clock.valid) =
      [true, true, true, true] := by decide
theorem wit_WindowsExpire : (withBook [bk 1 .opened 0, bk 2 .opened 18] [] fun _ w => w).book.windows.length = 96 ∧
    30 * 18 + 30 + base.store.work.lateGrace ≤ base.clock.minute ∧
    ¬30 * 19 + 30 + base.store.work.lateGrace ≤ base.clock.minute := by decide
theorem wit_WindowsExpire_rollover : sBooks.book.windows.length = 96 ∧
    (sBooks.book.table.filter fun k => decide (k.window < 48) && k.state != .inLane).length = 3 := by decide

/-- The terms of a claim. -/
def terms (minute : Nat) (pull : Bool) : ClaimTerms := ⟨minute, 15, 20, pull⟩

theorem wit_ClaimsAreClassed : books.windows.length = 96 ∧ (terms 1439 true).minute < 1440 ∧ books.find 9 = none ∧
    ([1, 2, 3, 4, 5].map fun n => (books.find n).map fun k => (k.state, k.window)) =
      [some (.opened, 5), some (.inLane, 0), some (.admitted, 7), some (.cancelled, 95), some (.noShow, 1)] ∧
    (books.find 2).bind (·.claim) = some (.l1, 5) ∧ 134 + 15 < 30 * 5 ∧ (books.window (134 / 30)).takes 1 = true ∧
    (books.window (35 / 30)).takes 1 = false ∧ 30 * 5 ≤ 135 + 15 ∧ 179 < 30 * 5 + 30 ∧ 30 * 5 + 30 ≤ 180 ∧
    199 < 30 * 5 + 30 + 20 ∧ 30 * 5 + 30 + 20 ≤ 200 ∧ (books.window (200 / 30)).takes 1 = true ∧
    (withBook [bk 1 .opened 5] [] fun _ w => { w with expired := true }).book.window 6 = ⟨40, 0, 0, true, false⟩ := by decide
theorem wit_ReleasesSettleBookings : books.windows.length = 96 ∧ books.find 2 = some (bk 2 .inLane 0) ∧
    (bk 2 .inLane 0).window < 96 ∧ (books.window 0).expired = false ∧
    ((withBook [bk 2 .inLane 0] [] fun _ w => { w with expired := true }).book.window 0).expired = true := by decide

/-! ### Witnesses: lanes and visits -/

/-- Lane 1 with a conditioned input on. -/
def lit (x : Lane) (i : Input) : Lane := { x with lines := x.lines.set i ⟨true, true, none, none⟩ }

/-- Lane 1 with a barrier in a state. -/
def barrierIn (st : BarrierState) (x : Lane) : Lane := { x with barrier := ⟨st, none, false, false, none⟩ }

theorem wit_OpenLaneOpens : CanAsk base ∧ readAll readU8 [1] = some 1 ∧ laneOf 1 = some .l1 ∧ base.gate = .opened ∧
    base.clock.valid = true ∧ (base.lane .l1).state = .closed ∧ (base.lane .l1).visit = none ∧
    State.reset.gate ≠ .opened ∧
    ((on1 fun x => { x with state := .idle, closePending := true }).lane .l1).closePending = true ∧
    ((on1 fun x => { x with state := .idle }).lane .l1).closePending = false ∧
    (on1 fun x => lit x .stop).input .l1 .stop = true ∧ ((on1 (barrierIn .down)).lane .l1).barrier.state = .down ∧
    ((on1 (barrierIn .up)).lane .l1).barrier.state = .up ∧ (on1 (barrierIn .up)).input .l1 .exit = false ∧
    (on1 (barrierIn .up)).input .l1 .downSense = false ∧ (on1 (barrierIn .down)).input .l1 .arrival = false := by decide
theorem wit_OpenLaneOpens_ranges : readAll readU8 [0] = some 0 ∧ laneOf 0 = none ∧ readAll readU8 [9] = some 9 ∧
    laneOf 9 = none ∧ readAll readU8 [8] = some 8 ∧ laneOf 8 = some .l8 ∧
    (((on1 fun x => { x with barrier := ⟨.fault, some .raise, true, false, none⟩ }).lane .l1).barrier.lowered false false 60).pending =
      some .lower ∧
    (((on1 fun x => lit (barrierIn .up x) .exit).lane .l1).barrier.lowered true false 60).exitHold = true := by decide
theorem wit_CloseLaneCloses : CanAsk base ∧ readAll readU8 [8] = some 8 ∧ laneOf 8 = some .l8 ∧
    (base.lane .l8).state = .closed ∧ ((on1 fun x => { x with state := .idle }).lane .l1).state = .idle ∧
    ((inLane .exiting v5).lane .l1).state = .exiting := by decide
theorem wit_ResetLaneEndsTheVisit : CanAsk (inLane .checking v5) ∧ readAll readU8 [1] = some 1 ∧ laneOf 1 = some .l1 ∧
    ((inLane .checking v5).lane .l1).state = .checking ∧ ((inLane .checking v5).lane .l1).visit = some v5 ∧
    ((inLane .checking v5).lane .l1).closePending = false ∧ (base.lane .l1).state = .closed ∧
    ((on1 fun x => { x with state := .checking, visit := some v5, closePending := true }).lane .l1).closePending = true := by decide
/-- A record of lane 1's visit at a bay or in the list, and the visit that holds it. -/
def mine (m : Nat) : BayHold := ⟨5, .l1, 2, [cid], 600, m⟩
/-- Lane 1 checking with a visit, and a pool. -/
def pooled (v : Visit) (bs : List (Option BayHold)) (ws : List BayHold) : State :=
  { inLane .checking v with pool := ⟨bs, ws⟩ }

theorem wit_ResetLaneEndsTheVisit_pool :
    let inPool : Visit := { v5 with hold := some 2 }
    let other : BayHold := { mine 3 with visit := 6 }
    CanAsk (pooled inPool [some other, some (mine 2)] []) ∧ v5.hold = none ∧ inPool.hold = some (mine 2).join ∧
    (mine 2).visit = inPool.number ∧ (mine 2).lane = .l1 ∧ other.visit ≠ inPool.number ∧ inPool.hold ≠ some (mine 1).join ∧
    [some other, some (mine 2)] = [some other] ++ some (mine 2) :: [] ∧ [mine 1, mine 2, other] = [mine 1] ++ mine 2 :: [other] ∧
    (∀ b ∈ [some other] ++ ([] : List (Option BayHold)), b ≠ none) := by decide
/-- R150: the reset takes the visit's own hold, in a bay or in the list, whatever the lane's marks, and none of an earlier visit. -/
theorem test_reset_own_hold :
    let inPool : Visit := { v5 with hold := some 2 }
    let other : BayHold := { mine 3 with visit := 6 }
    let reset (bs : List (Option BayHold)) (ws : List BayHold) : BayPool := (after (.resetLane 7 [1]) (pooled inPool bs ws)).pool
    reset [some other, some (mine 2)] [mine 1] = ⟨[some other, some (mine 1)], []⟩ ∧
    reset [some other] [mine 1, mine 2, other] = ⟨[some other], [mine 1, other]⟩ ∧
    reset [some (mine 1)] [mine 3] = ⟨[some (mine 1)], [mine 3]⟩ := by decide
/-- R168 with R51 and section 3.1: an active input forced OFF, an inactive one forced ON with a settle pending, the drive on with the lamp
green, and off with the lamp red. -/
theorem test_line_values : inputFields true ⟨false, true, none, some false⟩ = [0, 0, 2, 0] ∧
    inputFields false ⟨false, false, some 4, some true⟩ = [1, 1, 1, 1] ∧
    barrierFields ⟨.up, none, false, true, none⟩ .green = [0, 0, 1, 0, 0, 0] ∧
    barrierFields ⟨.down, none, false, false, none⟩ .red = [0, 0, 0, 0, 1, 1] := by decide
theorem wit_GetLaneReportsAndClears : CanAsk (inLane .checking v5) ∧ readAll readU8 [1] = some 1 ∧
    (inLane .checking v5).visit .l1 = some v5 ∧ base.visit .l1 = none := by decide

/-- A visit whose match is in a state, with both timers of the search. -/
def searching (m : MatchState) : Visit := { v5 with matchState := m, idSettle := some 3, lookup := some 2 }

theorem wit_TheSearchIsCommanded : CanAsk base ∧ laneOf 1 = some .l1 ∧
    ([0, 1, 99999999, 100000000].map fun n => readAll (readPair readU8 readU32) (1 :: u32 n)) =
      [some (1, 0), some (1, 1), some (1, 99999999), some (1, 100000000)] ∧
    ([LaneState.idle, .trouble, .arriving, .awaitingHost].map fun st =>
      ((inLane st (searching .failed)).lane .l1).state) = [.idle, .trouble, .arriving, .awaitingHost] ∧
    ([MatchState.claimed, .notTried, .waiting, .failed].map fun m =>
      ((inLane .trouble (searching m)).visit .l1).map (·.matchState)) =
        [some .claimed, some .notTried, some .waiting, some .failed] ∧
    readAll readAnswer [1, 5, 0, 0] = some ⟨1, 5, none⟩ ∧ readAll readAnswer (1 :: 5 :: 0 :: 1 :: u32 0) = some ⟨1, 5, some 0⟩ ∧
    readAll readAnswer (1 :: 5 :: 0 :: 1 :: u32 99999999) = some ⟨1, 5, some 99999999⟩ ∧
    readAll readAnswer (1 :: 5 :: 0 :: 1 :: u32 100000000) = some ⟨1, 5, some 100000000⟩ ∧
    readAll readAnswer [9, 6, 0, 0] = some ⟨9, 6, none⟩ ∧ readAll (readPair readU8 readU32) (0 :: u32 1) = some (0, 1) ∧
    laneOf 0 = none ∧ laneOf 9 = none ∧
    readAll readAnswer [1, 6, 0, 0] = some ⟨1, 6, none⟩ ∧ (searching .looking).number = 5 ∧
    (inLane .awaitingHost (searching .looking)).visit .l1 = some (searching .looking) := by decide

/-- A visit keyed to a booking, and the part that holds the booking. -/
def keyed (n : Nat) : Visit := { v5 with keyed := some n }

theorem wit_MatchesEndInResults : ((inLane .arriving v5).lane .l1).state = .arriving ∧
    (inLane .arriving v5).visit .l1 = some v5 ∧ candidate base.book 600 v5 = none ∧
    candidate books 600 (keyed 2) = some (bk 2 .inLane 0) ∧ (bk 2 .inLane 0).claim = some (.l1, 5) ∧
    base.store.work.response .bookingInUse = .hold ∧ base.exc.entries.length < 32 ∧ base.exc.next ≤ 65535 ∧
    (keyed 2).checks.booking.override = none ∧ (keyed 2).verdict = none ∧
    (keyed 2).checks.booking.waives .bookingInUse = false ∧
    { v5.checks.booking with waivers := [.kind .bookingInUse] }.waives .bookingInUse = true := by decide
/-- The books with every window full, minute 300. -/
def late : State := { inLane .awaitingHost (keyed 5) with
  book := { books with windows := books.windows.map fun w => { w with capacity := 0 } } }
/-- The part with a response to a kind. -/
def responding (k : ExcKind) (r : Response) (s : State) : State :=
  { s with store := { s.store with work := { s.store.work with responses := s.store.work.responses.set k.ctorIdx r k.index_lt } } }
/-- The part with a retry limit of a kind. -/
def limiting (k : ExcKind) (n : Nat) (s : State) : State :=
  { s with store := { s.store with work := { s.store.work with limits := s.store.work.limits.set k.ctorIdx n k.index_lt } } }
theorem wit_MatchesEndInResults_refused : (late.book.claim late.claimTerms 5 .l1 5).2 = .lateFull 20 ∧
    candidate books 600 (keyed 5) = some (bk 5 .noShow 1) ∧ (books.claim base.claimTerms 2 .l1 5).2 = .inUse .l1 5 ∧
    (keyed 5).checks.timeliness.override = none ∧ (keyed 5).checks.timeliness.waives .windowLateFull = false ∧
    late.store.work.response .windowLateFull = .note ∧
    (responding .windowLateFull .hold late).store.work.response .windowLateFull = .hold ∧
    (responding .bookingInUse .silent late).store.work.response .bookingInUse = .silent := by decide

/-- An entry of NO_BOOKING under RETRY, with retries counted. -/
def searchEntry (n : Nat) : Entry :=
  ⟨1, .noBooking, some .l1, some 5, none, 1, 600, .retry, n, .opened, none, some 30, false⟩
/-- Lane 1 in AWAITING_HOST with a search and entries. -/
def searchState (retried : Bool) (es : List Entry) : State :=
  { inLane .awaitingHost { searching .looking with searchRetried := retried } with
    book := books, exc := { base.exc with entries := es, next := es.length + 1 } }
theorem searchState_bounds (r : Bool) (es : List Entry) (h : es = [] ∨ ∃ n, es = [searchEntry n]) :
    Bounds (searchState r es) := by
  have b := wit_bounds
  obtain rfl | ⟨n, rfl⟩ := h <;>
    exact ⟨books_balance.windows, books_flags, by simp [searchState, Config.entryMax], by simp [searchState],
      by simp [searchState, searchEntry], b.waiting, b.notices, b.lost⟩
theorem wit_ClaimsReachTheVisit :
    let s := searchState false []
    let t := searchState true [searchEntry 0]
    Bounds s ∧ Bounds t ∧ s.visit .l1 = some (searching .looking) ∧ (searching .looking).verdict = none ∧
    (s.lane .l1).state = .awaitingHost ∧ (s.book.claim s.claimTerms 5 .l1 5).2 = .claimed .late 20 true ∧
    s.book.find 5 = some (bk 5 .noShow 1) ∧ (s.book.claim s.claimTerms 9 .l1 5).2 = .notFound ∧
    (s.book.claim s.claimTerms 3 .l1 5).2 = .final ∧ v5.checks.booking.override = none ∧
    v5.checks.booking.waives .noBooking = false ∧ s.exc.entries.length < 32 ∧ s.store.work.response .noBooking = .retry ∧
    s.store.work.limit .noBooking ≠ 0 ∧ (responding .noBooking .hold s).store.work.response .noBooking = .hold ∧
    (responding .noBooking .note s).store.work.response .noBooking = .note ∧
    (t.visit .l1).map (·.searchRetried) = some true ∧
    (t.exc.entries.find? fun e => e.kind == .noBooking && e.lane == some .l1 && e.visit == some 5 && e.pos == none &&
      e.state == .opened && e.response == .retry) = some (searchEntry 0) ∧
    min 7 ((searchEntry 0).retries + 1) < (limiting .noBooking 2 t).store.work.limit .noBooking ∧
    t.store.work.limit .noBooking ≤ min 7 ((searchEntry 0).retries + 1) :=
  ⟨searchState_bounds _ _ (.inl rfl), searchState_bounds _ _ (.inr ⟨0, rfl⟩), by decide +kernel⟩
theorem wit_CandidatesInOrder : nearest 600 [bk 1 .opened 19, bk 2 .opened 21, bk 3 .opened 5] = some (bk 1 .opened 19) := by
  decide
theorem wit_VisitsAreAbandoned :
    let v : Visit := { v5 with abandon := some 1 }
    (inLane .arriving v).power = true ∧ (inLane .arriving v).visit .l1 = some v ∧ v.abandon.isSome = true ∧
      v5.abandon = none ∧ (inLane .arriving v5).visit .l1 = some v5 ∧ ((inLane .arriving v).lane .l1).closePending = false ∧
      ((on1 fun x => { x with state := .arriving, visit := some v, closePending := true }).lane .l1).closePending = true := by
  decide
theorem wit_CountersSaturate : ∃ t, step State.reset = .next t := ⟨_, rfl⟩

/-! ### Witnesses: lane lines and the barrier -/

theorem wit_LinesSettle : CanAsk base ∧ readAll readForce [1, 0, 1] = some (1, some .arrival, false) ∧
    readAll readForce [9, 0, 1] = some (9, some .arrival, false) ∧ laneOf 9 = none ∧ laneOf 0 = none ∧
    readAll readForce [1, 6, 0] = some (1, none, true) ∧ laneOf 8 = some .l8 ∧
    readAll readUnforce [8, 5] = some (8, some .call) ∧ readAll readUnforce [1, 7] = some (1, none) := by decide
theorem wit_LinesSettle_events : base.power = true ∧ true ≠ (base.line .l1 .arrival).raw ∧
    (base.line .l1 .arrival).pending = none ∧
    ((on1 fun x => { x with lines := x.lines.set .arrival ⟨true, false, some 20, none⟩ }).line .l1 .arrival).pending ≠ none ∧
    (base.store.work.settleSteps.get .l1).get .arrival ≠ 0 := by decide

/-- Lane 1 in a state with a visit, a barrier and inputs on. -/
def laneWith (st : LaneState) (v : Option Visit) (b : BarrierState) (is : List Input) : State :=
  on1 fun x => is.foldl lit { barrierIn b x with state := st, visit := v }

/-- A decided visit whose verdict is a given one. -/
def decided (d : Verdict) : Visit := { v5 with verdict := some d, raiseCommanded := true, passage := true }

theorem wit_ConditionedChanges_inputs :
    (laneWith .idle none .down [.call]).input .l1 .call = true ∧ base.input .l1 .call = false ∧
    loopOf .exit = some .exit ∧ (laneWith .idle none .down [.arrival]).input .l1 .arrival = true ∧
    (((laneWith .idle none .down [.arrival]).conditioned .l1 .arrival true).lane .l1).state ≠ .closed ∧
    ((laneWith .idle none .down [.arrival]).lane .l1).state = .idle ∧
    ((laneWith .idle none .down [.arrival]).lane .l1).closePending = false ∧ (base.lane .l1).state = .closed ∧
    (laneWith .arriving (some v5) .down [.stop]).input .l1 .stop = true ∧
    ((laneWith .arriving (some v5) .down [.stop]).lane .l1).visit = some v5 ∧
    (laneWith .checking (some v5) .down []).input .l1 .stop = false := by decide
theorem wit_ConditionedChanges_barrier :
    let up := laneWith .decided (some (decided .admitIn)) .raising [.upSense]
    let rev := laneWith .exiting (some (decided .admitIn)) .lowering [.exit]
    let out := laneWith .exiting (some (decided .admitIn)) .up []
    let gone := laneWith .exiting (some (decided .turnAway)) .lowering [.downSense]
    (up.input .l1 .upSense = true ∧ (up.lane .l1).state = .decided ∧ (up.lane .l1).barrier.state = .raising ∧
      (up.lane .l1).barrier.faultMark = false ∧ (decided .admitIn).raiseCommanded = true) ∧
    (rev.input .l1 .exit = true ∧ (rev.lane .l1).barrier.state = .lowering ∧ (rev.lane .l1).barrier.faultMark = false ∧
      rev.input .l1 .upSense = false ∧ (rev.lane .l1).state = .exiting) ∧
    (out.input .l1 .exit = false ∧ (out.lane .l1).state = .exiting ∧
      (out.lane .l1).barrier = ⟨.up, none, false, false, none⟩ ∧ out.input .l1 .downSense = false ∧
      (out.lane .l1).visit = some (decided .admitIn)) ∧
    gone.input .l1 .downSense = true ∧ (gone.lane .l1).state = .exiting ∧ (gone.lane .l1).barrier.state = .lowering ∧
      (gone.lane .l1).closePending = false ∧ (gone.lane .l1).visit = some (decided .turnAway) ∧
      (decided .turnAway).verdict = some .turnAway := by decide
theorem wit_TimersOfTheLines :
    let stuck := on1 fun x => { x with stuck := ⟨⟨some 1, false⟩, ⟨none, false⟩, ⟨none, false⟩⟩ }
    let runs (st : LaneState) (m : Bool) := on1 fun x => { x with state := st, barrier := ⟨.raising, none, m, false, some 1⟩ }
    base.power = true ∧ ((base.lane .l1).stuck.get .exit).left = none ∧ ((stuck.lane .l1).stuck.get .arrival).left ≠ none ∧
    (base.lane .l1).barrier.left = none ∧ ((runs .closed false).lane .l1).barrier.left ≠ none ∧
    ((runs .idle false).lane .l1).state ≠ .closed ∧ ((runs .idle true).lane .l1).barrier.faultMark = true := by decide
theorem wit_BarrierCommands :
    let b (st : BarrierState) (p : Option Motion) (m : Bool) (is : List Input) : State :=
      on1 fun x => is.foldl lit { x with barrier := ⟨st, p, m, false, none⟩ }
    let lane (s : State) := (s.lane .l1).barrier
    (lane (b .down none false [])).state = .down ∧ (b .down none false []).input .l1 .upSense = false ∧
    (b .lowering none false [.upSense]).input .l1 .upSense = true ∧ (lane (b .up none false [.exit])).state = .up ∧
    (b .up none false [.exit]).input .l1 .exit = true ∧ (b .raising none false []).input .l1 .exit = false ∧
    (lane (b .fault (some .raise) true [])).faultMark = true ∧ (lane (b .fault (some .raise) false [])).faultMark = false ∧
    (b .fault (some .lower) false [.downSense]).input .l1 .downSense = true ∧
    (b .fault (some .lower) false [.downSense]).input .l1 .upSense = false ∧
    (b .fault (some .raise) false [.upSense]).input .l1 .downSense = false ∧
    (b .fault none false []).input .l1 .upSense = (b .fault none false []).input .l1 .downSense ∧
    (decided .admitIn).verdict ≠ none := by decide

/-! ### Witnesses: reads, waits, the Hold List -/

/-- A PLATE_READ, ID_READ or SEAL_READ body for lane 1. -/
def readBody (pos : List Byte) (t : Text) : List Byte := 1 :: pos ++ textField t

/-- The part with a Hold List. -/
def withHolds (hs : List HoldEntry) (s : State) : State := { s with holds := hs }

/-- An entry for plates that begin with A. -/
def plateHold (a : WatchAction) : HoldEntry := ⟨.plate, [65, 42], a, 9⟩

/-- A visit that has claimed booking 2, its only move known at FRONT. -/
def claimed : Visit :=
  { v5 with
    matchState := .claimed, claimed := some 2
    front := { v5.front with made := true, sealPart := { v5.front.sealPart with move := some (1, .recorded) } }
    rear := { v5.rear with sealPart := .none, damage := .none } }

/-- The part with the books and a visit in lane 1. -/
def withVisit (st : LaneState) (v : Visit) : State :=
  { inLane st v with book := books }

theorem wit_PlatesAreRead :
    let s := inLane .arriving v5
    CanAsk s ∧ readAll (readPair readU8 readText) (readBody [] plate) = some (1, plate) ∧ laneOf 1 = some .l1 ∧
    laneOf 9 = none ∧ plateOk plate = true ∧ plateOk [65] = false ∧ (base.lane .l1).takesReads = false ∧
    (s.lane .l1).takesReads = true ∧ (s.lane .l1).visit = some v5 ∧ v5.claimed = none ∧ v5.plate ≠ some plate ∧
    v5.plateWatch = none ∧ claimed.claimed ≠ none ∧ (s.lane .l1).state ≠ .checking ∧
    s.holds.find? (fun h => h.kind == .plate && patternMatches h.pattern plate) = none ∧
    (withHolds [plateHold .hold] s).holds.find? (fun h => h.kind == .plate && patternMatches h.pattern plate) =
      some (plateHold .hold) ∧
    s.exc.entries.length < 32 ∧ s.exc.next ≤ 65535 ∧ v5.checks.watch.override = none := by decide
theorem wit_IdsAreRead_tests :
    let s := inLane .arriving v5
    CanAsk s ∧ readAll readId (readBody [0] cid) = some ⟨1, .front, cid⟩ ∧ laneOf 1 = some .l1 ∧
    (cid.length = 11 ∧ cid.all isAlnum = true) ∧ (s.lane .l1).takesReads = true ∧ (s.lane .l1).visit = some v5 ∧
    cidOk cid = true ∧ cidOk (cid.set 10 49) = false ∧ (cid.set 10 49).all isAlnum = true ∧
    ((s.modLane .l2 fun x => { x with visit := some { v5 with front := { v5.front with cid := some cid } } }).visit .l2).map
      (fun w => w.front.cid) = some (some cid) := by decide
theorem wit_IdsAreRead_placed :
    let other : Text := [84, 75, 76, 85, 48, 48, 48, 48, 48, 48, 48]
    v5.claimed = none ∧ v5.front.cid = none ∧ v5.rear.cid = none ∧
    ((withVisit .checking claimed).book.find 2).map Booking.moves = some [box] ∧ claimed.claimed = some 2 ∧
    ([box].find? fun m => m.kind.bringIn && m.cid == some cid) = some box ∧
    ([box].find? fun m => m.kind.bringIn && m.cid == some other) = none ∧ box.length = .l20 ∧
    ((withVisit .checking claimed).lane .l1).takesReads = true := by decide
theorem wit_SealsAreRead :
    let s := inLane .arriving v5
    let t := withVisit .checking claimed
    CanAsk s ∧ CanAsk t ∧ readAll readSeal (readBody [3] [65, 49] ++ [0]) = some ⟨1, .unknown, [65, 49], .reader⟩ ∧
    readAll readSeal (readBody [0] [65, 49] ++ [1]) = some ⟨1, .front, [65, 49], .clerk⟩ ∧ laneOf 1 = some .l1 ∧
    sealOk [65, 49] = true ∧ (s.lane .l1).takesReads = true ∧ (s.lane .l1).visit = some v5 ∧
    (t.lane .l1).takesReads = true ∧ (t.lane .l1).visit = some claimed ∧ v5.unplaced.length < 4 ∧
    t.moveOf .l1 .front = some box ∧ t.moveOf .l1 .rear = none ∧ (claimed.pos .front).sealPart.final = false ∧
    (claimed.pos .front).sealPart.seen.length < 4 ∧
    { claimed.front.sealPart with outcome := .mismatch, phase := .closed }.final = true := by decide
/-- The books with a second box in booking 2, and a visit that has claimed it with both boxes known. -/
def twoBoxes (rear : Move) (v : Visit) : State :=
  { inLane .checking v with book := { books with
    table := books.table.map fun k => if k.number = 2 then { k with moves := [box, rear] } else k } }
theorem wit_SealsAreRead_unknown :
    let v : Visit := { claimed with rear := { v5.rear with made := true, sealPart := { v5.rear.sealPart with move := some (2, .recorded) } } }
    let s := twoBoxes { box with seals := [[65, 50]] } v
    CanAsk s ∧ (s.lane .l1).takesReads = true ∧ (s.lane .l1).visit = some v ∧ v.claimed ≠ none ∧
    readAll readSeal (readBody [3] [65, 50] ++ [0]) = some ⟨1, .unknown, [65, 50], .reader⟩ ∧
    readAll readSeal (readBody [3] [90] ++ [0]) = some ⟨1, .unknown, [90], .reader⟩ ∧
    s.moveOf .l1 .front = some box ∧ [65, 50] ∉ box.seals ∧
    (s.moveOf .l1 .rear).map (fun m => (m.kind, m.seals)) = some (.deliverFull, [[65, 50]]) ∧
    (after (.sealRead 7 (readBody [3] [65, 50] ++ [0])) s).visit .l1 =
      some { v with rear := { v.rear with sealPart := { v.rear.sealPart with
        seen := [⟨[65, 50], .reader⟩], outcome := .ok, phase := .opened } }
                    checks := { v.checks with sealRear := { v.checks.sealRear with outcome := .pass, changed := true } } } ∧
    status (.sealRead 7 (readBody [3] [90] ++ [0])) s = some .notApplied ∧
    status (.sealRead 7 (readBody [3] [90] ++ [0])) (withVisit .checking claimed) = some .ok := by decide
theorem wit_SurveysAreGraded :
    let s := inLane .arriving v5
    let t := withVisit .checking claimed
    let body : List Byte := [1, 0, 1, 3, 4, 6, 1, 0]
    CanAsk s ∧ CanAsk t ∧ readAll readSurvey body = some ⟨1, .front, [⟨.doorEnd, .hole, 6, 1⟩]⟩ ∧ laneOf 1 = some .l1 ∧
    (s.lane .l1).takesReads = true ∧ (s.lane .l1).visit = some v5 ∧ v5.claimed = none ∧ v5.front.cid = none ∧
    (t.lane .l1).takesReads = true ∧ (t.lane .l1).visit = some claimed ∧
    (claimed.pos .front).sealPart.move = some (1, .recorded) ∧ moveAt (t.claimedMoves .l1) 1 = some box ∧
    (claimed.pos .rear).sealPart.move = none ∧ readAll readSurvey [1, 3, 0] = some ⟨1, .unknown, []⟩ ∧
    readAll readSurvey [1, 2, 0] = some ⟨1, .whole, []⟩ := by decide
/-- R105: two defects of one panel add up, at most to 500; a panel with none has the sum 0. -/
theorem test_panel_sums :
    let g (ds : List Defect) : DamagePart := DamagePart.fresh.grade ⟨6, ⟨3, 3, 4, 6, 6⟩, 40, 200, 0⟩ ⟨ds, 1⟩
    let dent : Defect := ⟨.roof, .dent, 32, 960⟩
    let hole : Defect := ⟨.roof, .hole, 255, 4095⟩
    ((g [dent, dent]).sums.roof, (g [dent, dent]).sums.left, (g [dent, dent]).index) = (128, 0, 96) ∧
    (g [hole, hole]).sums.roof = 500 := by decide
theorem wit_WaitsEnd :
    let v : Visit := { claimed with sealWait := some 1, surveyWait := some 1 }
    let s := withVisit .checking v
    s.power = true ∧ s.visit .l1 = some v ∧ v.sealWait ≠ none ∧ v.surveyWait ≠ none ∧ s.claimedBooking .l1 ≠ none ∧
    (v.pos .front).sealPart.move ≠ none ∧ (v.pos .front).damage.phase = .opened ∧ (v.pos .front).damage.graded = none ∧
    (v.pos .front).damage.held = none ∧ (v.pos .rear).damage.phase ≠ .opened ∧ claimed.sealWait = none ∧
    claimed.surveyWait = none := by decide
theorem wit_WaitsEnd_parts :
    let v : Visit := { claimed with sealWait := some 1, front := { claimed.front with cid := some cid } }
    let s := withVisit .checking v
    let unread : Visit := { v with
      front := { claimed.front with cid := none, sealPart := { claimed.front.sealPart with move := some (1, .expected) } } }
    seatMoves (s.claimedMoves .l1) v.front v.rear = (v.front.sealPart.move, v.rear.sealPart.move) ∧
    seatMoves ((withVisit .checking unread).claimedMoves .l1) unread.front unread.rear =
      (unread.front.sealPart.move, unread.rear.sealPart.move) ∧
    (unread.pos .front).unreadable = false ∧ s.store.work.response .idUnreadable ≠ .silent ∧
    (v.pos .front).sealPart.move = some (1, .recorded) ∧ moveAt (s.claimedMoves .l1) 1 = some box ∧
    (v.pos .front).sealPart.phase = .opened ∧ box.kind = .deliverFull ∧ (v.pos .front).sealPart.outcome = .pending ∧
    (box.seals.filter fun c => !((v.pos .front).sealPart.seen.any fun y => y.text == c)) ≠ [] ∧
    (v.pos .front).sealPart.seen = [] ∧ (v.pos .front).sealPart.missingMark = false ∧
    s.store.work.response .sealMissing = .retry ∧ s.store.work.limit .sealMissing ≠ 0 ∧
    (v.checks.get .sealFront).override = none ∧ s.exc.entries.length ≤ 16 ∧ s.exc.next ≤ 65000 ∧
    (responding .sealMissing .note s).store.work.response .sealMissing = .note ∧
    ([(SealPart.mk [⟨[65, 49], .reader⟩] (some (1, .recorded)) .pending .opened false false false none)].map fun z =>
      box.seals.filter fun c => !(z.seen.any fun y => y.text == c)) = [[]] := by decide
theorem wit_WaitsEnd_survey :
    let v : Visit := { claimed with surveyWait := some 1 }
    let s := withVisit .checking v
    let d := (v.pos .front).damage
    let lost : State := { s with exc := { s.exc with entries := List.replicate 32 { Entry.settingsRestored with state := .opened } } }
    s.visit .l1 = some v ∧ v.surveyWait ≠ none ∧ (v.pos .front).sealPart.move = some (1, .recorded) ∧
    moveAt (s.claimedMoves .l1) 1 = some box ∧ d.phase = .opened ∧ d.graded = none ∧ d.held = none ∧ d.missingMark = false ∧
    s.store.work.response .surveyMissing = .retry ∧ s.store.work.limit .surveyMissing ≠ 0 ∧
    (v.checks.get .damageFront).override = none ∧ s.exc.entries.length ≤ 16 ∧ s.exc.next ≤ 65000 ∧ s.link.noticeCount ≤ 16 ∧
    s.store.work.mask .reread = true ∧ (s.lane .l1).state = .checking ∧
    (responding .surveyMissing .hold s).store.work.response .surveyMissing = .hold ∧
    (responding .surveyMissing .note s).store.work.response .surveyMissing = .note ∧
    (limiting .surveyMissing 0 s).store.work.limit .surveyMissing = 0 ∧ 32 ≤ lost.exc.entries.length ∧
    ∀ e ∈ lost.exc.entries, e.state = .opened := by decide
/-- R111: with the response HOLD the part is CLOSED and UNSURVEYED, and the lane in TROUBLE. -/
theorem test_survey_missing_held :
    let t := after (.surveyWaitExpiry .l1) (responding .surveyMissing .hold (withVisit .checking { claimed with surveyWait := some 1 }))
    (t.visit .l1).map (fun v => (v.front.damage.phase, v.front.damage.outcome)) = some (.closed, .unsurveyed) ∧
    (t.lane .l1).state = .trouble := by decide
theorem wit_HoldListIsKept :
    let h : HoldEntry := ⟨.plate, [65, 42], .hold, 9⟩
    (42 : Byte) ∉ [65, 63] ∧ CanAsk (withHolds [h] base) ∧ readAll readHoldAdd [0, 2, 65, 42, 1, 9] = some h ∧
    patternOk [65, 42] = true ∧ patternOk [42, 65] = false ∧ (withHolds [h] base).holds = [h] ∧
    readAll readHoldRemove [0, 2, 65, 42] = some (.plate, [65, 42]) ∧
    (withHolds (List.replicate 64 { h with kind := .container }) base).holds.length = 64 := by decide

/-! ### Witnesses: checks, verdicts, directions -/

theorem wit_bounds_like (s : State) (h1 : s.book = base.book) (h2 : s.exc = base.exc) (h3 : s.pool = base.pool)
    (h4 : s.link = base.link) : Bounds s := by
  have h := wit_bounds
  exact ⟨by rw [h1]; exact h.windows, by rw [h1]; exact h.flags, by rw [h2]; exact h.entries, by rw [h2]; exact h.ascending,
    by rw [h2]; exact h.below, by rw [h3]; exact h.waiting, by rw [h4]; exact h.notices, by rw [h4]; exact h.lost⟩

/-- A visit with SEAL_FRONT overridden. -/
def overridden : Visit :=
  { v5 with checks := { v5.checks with sealFront := { v5.checks.sealFront with override := some true } } }

theorem wit_ChecksAreOverridden : Bounds (inLane .checking v5) ∧ CanAsk (inLane .checking v5) ∧
    readAll readOverride [1, 6, 0] = some (1, .sealFront, true) ∧ laneOf 1 = some .l1 ∧ laneOf 9 = none ∧
    base.takesOverride .l1 = false ∧ (inLane .checking v5).takesOverride .l1 = true ∧
    (inLane .checking v5).visit .l1 = some v5 ∧ readAll readUnoverride [1, 6] = some (1, .sealFront) ∧
    (v5.checks.get .sealFront).override = none ∧ (overridden.checks.get .sealFront).override ≠ none ∧
    (inLane .checking overridden).takesOverride .l1 = true :=
  ⟨wit_bounds_like _ rfl rfl rfl rfl, by decide⟩
theorem wit_ResetLaneEndsTheVisit_bounds : Bounds (inLane .checking v5) ∧
    Bounds (on1 fun x => { x with state := .checking, visit := some v5, closePending := true }) :=
  ⟨wit_bounds_like _ rfl rfl rfl rfl, wit_bounds_like _ rfl rfl rfl rfl⟩
/-- A visit with an override of a check. -/
def overriding (c : CheckName) (v : Visit) : Visit := { v with checks := v.checks.set c { v.checks.get c with override := some true } }
theorem wit_ChecksAreOverridden_anew :
    let names : List CheckName := [.booking, .timeliness, .release, .watch, .idFront, .idRear, .sealFront, .sealRear,
      .damageFront, .damageRear]
    let s (c : CheckName) (v : Visit) : State := withVisit .awaitingHost (overriding c v)
    let graded : Visit := { claimed with front := { claimed.front with
      damage := { claimed.front.damage with graded := some ⟨[], 1⟩, outcome := .clean } } }
    (∀ c ∈ names, (s c claimed).takesOverride .l1 = true ∧ ((s c claimed).lane .l1).state ≠ .checking ∧
      (s c claimed).visit .l1 = some (overriding c claimed) ∧ ((overriding c claimed).checks.get c).override ≠ none) ∧
    ((s .damageFront graded).moveOf .l1 .front ≠ none ∧ (graded.pos .front).damage.outcome ≠ .unsurveyed ∧
      (graded.pos .rear).damage.graded = none) ∧
    ((heldBy (overriding .idFront claimed)).lane .l1).state = .checking := by decide
/-- R123: UNOVERRIDE of WATCH before any attempt gives PENDING, also with an INSPECT mark. -/
theorem test_unoverride_watch :
    let v : Visit := { overriding .watch claimed with plateWatch := some ⟨.inspect, 3⟩ }
    (((after (.unoverride 7 [1, 3]) (withVisit .awaitingHost v)).visit .l1).map fun w =>
      ((w.checks.get .watch).override, (w.checks.get .watch).outcome)) = some (none, .pending) := by decide
theorem wit_ChecksAreOverridden_bounds (c : CheckName) (v : Visit) : Bounds (withVisit .awaitingHost (overriding c v)) := by
  have b := wit_bounds
  exact ⟨books_balance.windows, books_flags, b.entries, b.ascending, b.below, b.waiting, b.notices, b.lost⟩
theorem wit_VerdictsAreDecided : (decided .admitIn).verdict ≠ none ∧ (inLane .checking v5).visit .l1 = some v5 ∧
    v5.verdict = none ∧ ((inLane .checking v5).lane .l1).state = .checking := by decide
theorem wit_VerdictsAreDecided_ready :
    let c (o : Outcome) : Check := { v5.checks.idFront with outcome := o }
    let v : Visit := { v5 with
      front := { v5.front with sealPart := .none, damage := { v5.front.damage with phase := .closed } }
      rear := { v5.rear with sealPart := { v5.rear.sealPart with phase := .closed }
                             damage := { v5.rear.damage with graded := some ⟨[], 1⟩ } }
      checks := { v5.checks with idFront := c .pass, idRear := { c .pending with override := some true } } }
    v.front.sealPart.outcome = .notApplicable ∧ v.front.damage.phase = .closed ∧ v.checks.idFront.outcome ≠ .pending ∧
    v.rear.sealPart.phase = .closed ∧ v.rear.damage.graded ≠ none ∧ v.checks.idRear.override ≠ none ∧
    (inLane .checking v).exc.entries = [Entry.settingsRestored] ∧ Entry.settingsRestored.state = .logged ∧
    ((inLane .checking v).settle .l1 = inLane .checking v) = False ∧ v5.checks.idFront.outcome = .pending ∧
    (inLane .checking v5).settle .l1 = inLane .checking v5 := by
  refine ⟨by decide, by decide, by decide, by decide, by decide, by decide, by decide, by decide, eq_false ?_, by decide, rfl⟩
  intro h
  have h2 := congrArg (fun s => (s.visit .l1).map Visit.verdict) h
  revert h2; decide
theorem wit_VerdictsAreDecided_reasons :
    let fails (c : CheckName) (v : Visit) : Visit := { v with checks := v.checks.set c { v.checks.get c with override := some false } }
    let s := inLane .decided (decided .admitIn)
    let full : State := { s with link := { s.link with outbox := List.replicate 32 (.notice .settingsRestored) } }
    let masked : State := { s with store := { s.store with work := { s.store.work with
      masks := s.store.work.masks.set NoticeKind.verdict.ctorIdx false NoticeKind.verdict.index_lt } } }
    (decideVerdict (fails .booking (fails .release holder))).2 = some (.check .booking .fail) ∧
    (decideVerdict (fails .sealFront (fails .watch holder))).1 = .inspect ∧
    s.visit .l1 = some (decided .admitIn) ∧ (decided .admitIn).verdict = some .admitIn ∧
    (s.store.work.mask .verdict = true ∧ s.link.noticeCount < 32) ∧ ¬full.link.noticeCount < 32 ∧
    masked.store.work.mask .verdict = false ∧ (holder.checks.get .release).override = none := by decide

/-- Lane 1 with a direction queue and a credit. -/
def signed (st : LaneState) (v : Option Visit) (q : List Group) (c : Nat) : State :=
  on1 fun x => { x with state := st, visit := v, sign := { x.sign with queue := q, credit := c, stall := some 1 } }

/-- A group of one record, sent or not. -/
def group (n : Nat) (sent : Bool) : Group := ⟨n, [⟨.goToHolding, sent⟩]⟩

theorem wit_DirectionsAreSent :
    let s := signed .decided (some v5) [group 5 false] 0
    let two := signed .decided (some v5) [⟨5, [⟨.goToHolding, false⟩, ⟨.goToBay 1, false⟩]⟩] 0
    s.power = true ∧ 1 ≤ (1 : Byte).toNat ∧ (8 : Byte).toNat ≤ 8 ∧ (s.lane .l1).sign.queue = [] ++ [group 5 false] ∧
    (group 5 false).recs ≠ [] ∧ (group 5 false).recs.length ≤ (1 : Byte).toNat ∧ (s.lane .l1).visit = some v5 ∧
    (base.lane .l1).sign.queue = [] ∧ (two.lane .l1).sign.queue.map (·.recs.length) = [2] ∧
    2 ≤ two.store.work.signCapacity.get .l1 ∧ (s.lane .l1).sign.rx = [] ∧ CanAsk base ∧
    readAll (readPair readU8 readText) (readBody [] [72, 32, 49]) = some (1, [72, 32, 49]) ∧
    (∀ b ∈ ([72, 32, 49] : Text), isAlnum b = true ∨ b = 0x20) ∧ isAlnum 97 = false ∧ (base.lane .l1).sign.credit = 0 ∧
    ((signed .idle none [] 1).lane .l1).sign.credit = 1 ∧
    (((signed .idle none [group 1 false, group 2 false, group 3 false] 0).lane .l1).sign.queue.map (·.recs.length)).sum = 3 := by
  decide
theorem wit_DirectionsAreSent_pieces :
    let r (sent : Bool) : DirRec := ⟨.goToHolding, sent⟩
    let s (q : List Group) : State := signed .decided (some v5) q 0
    let small : State := { s [⟨5, [r false, r false]⟩] with store := { base.store with work := { base.store.work with
      signCapacity := base.store.work.signCapacity.set .l1 1 } } }
    let two := signed .decided (some v5) [⟨5, [r false, r false]⟩] 1
    (small.store.work.signCapacity.get .l1 < 2 ∧ small.store.work.signCapacity.get .l1 ≤ 1) ∧
    ((s [⟨5, [r true, r false]⟩]).lane .l1).sign.queue = [] ++ ⟨5, [r true] ++ [r false]⟩ :: [] ∧
    ¬(2 ≤ (1 : Byte).toNat ∨ (s []).store.work.signCapacity.get .l1 < 2) ∧
    ((s [group 4 true, group 5 false, group 0 false]).lane .l1).sign.queue = [group 4 true] ++ group 5 false :: [group 0 false] ∧
    ((after (.ready .l1 1) small).lane .l1).sign.queue = [⟨5, [r true, r false]⟩] ∧
    ((after (.ready .l1 2) (s [group 4 true, group 5 false, group 0 false])).lane .l1).sign.queue = [group 4 true, group 5 true] ∧
    CanAsk two ∧ 1 ≤ (two.lane .l1).sign.credit ∧ (two.lane .l1).sign.credit ≤ 8 ∧
    ((two.lane .l1).sign.queue.map fun g => g.recs.length).sum ≤ 2 ∧ (v5.number = 5 ∧ (0 : Nat) ≠ 5) := by decide
theorem wit_GroupsAreComposed :
    let v (d : Verdict) (r : Option Reason) : Visit := { holder with verdict := some d, reason := r, bay := some 3 }
    let s (d : Verdict) (r : Option Reason) (q : List Group) : State :=
      { signed .decided (some (v d r)) q 0 with book := books }
    let stays (q : List Group) (n : Nat) : Bool :=
      (q.all fun g => g.visit == 0 || g.visit == 5) && decide ((q.map fun g => g.recs.length).sum + n ≤ 6)
    let six : List Group := [⟨5, List.replicate 3 ⟨.goToHolding, true⟩⟩, ⟨0, List.replicate 3 ⟨.text [65], false⟩⟩]
    (s .admitIn none []).visit .l1 = some (v .admitIn none) ∧ (v .admitIn none).verdict = some .admitIn ∧
    (s .turnAway (some .forced) [group 4 false, group 5 false]).visit .l1 = some (v .turnAway (some .forced)) ∧
    stays [group 4 false, group 5 false] 1 = false ∧ stays ([group 4 false, group 5 false].drop 1) 1 = true ∧
    stays [group 5 false, group 4 false] 1 = false ∧ stays ([group 5 false, group 4 false].drop 1) 1 = false ∧
    stays six 1 = false ∧ stays (six.drop 1) 1 = true ∧ (v .inspect (some .forced)).bay = some 3 ∧ v5.bay = none ∧
    ((s .admitIn none []).lane .l1).sign.credit = 0 ∧
    (((s .turnAway (some .forced) [group 4 false, group 5 false]).handOver .l1).lane .l1).sign.queue =
      [group 5 false, ⟨5, [⟨.turnAround 18, false⟩]⟩] ∧
    ((((s .admitIn none six).handOver .l1).lane .l1).sign.queue.map (·.recs.length)) = [3, 1] ∧
    (((s .inspect (some .noClaim) [group 4 false]).handOver .l1).lane .l1).sign.queue =
      [⟨5, [⟨.goToBay 3, false⟩, ⟨.seeClerk 19, false⟩]⟩] := by decide
theorem wit_StallsAreReported :
    let s := signed .decided (some v5) [group 5 false] 0
    let met : Visit := { v5 with delivered := true, bayStep := .notNeeded, verdict := some .admitIn }
    let r := on1 fun x => barrierIn .down { x with state := .decided, visit := some met }
    s.power = true ∧ (base.lane .l1).sign.stall = none ∧ (s.lane .l1).sign.stall ≠ none ∧
    ((signed .closed none [group 5 false] 0).lane .l1).state = .closed ∧ (s.lane .l1).state ≠ .closed ∧
    (s.lane .l1).visit = some v5 ∧ ((s.lane .l1).sign.queue.any fun g => g.visit == 5 && g.recs.any fun r => !r.sent) = true ∧
    (r.lane .l1).visit = some met ∧ (r.lane .l1).state = .decided ∧ (r.lane .l1).barrier = ⟨.down, none, false, false, none⟩ ∧
    r.input .l1 .upSense = false ∧ met.raiseCommanded = false ∧ met.bayStep ≠ .pending := by decide

/-! ### Witnesses: exceptions -/

/-- An OPEN entry of lane 1 and visit 5. -/
def openEntry (n : Nat) (k : ExcKind) (p : Option Pos) (r : Response) : Entry :=
  ⟨n, k, some .l1, some 5, p, 0, 0, r, 0, .opened, none, if r = .retry then some 1 else none, false⟩

/-- The part with a visit in lane 1 and entries 1, 2 and so on. -/
def withEntries (st : LaneState) (v : Visit) (es : List Entry) : State :=
  { inLane st v with exc := { base.exc with entries := es, next := es.length + 1 } }

/-- A table of 32 entries in a state. -/
def fullTable (st : EntryState) : State :=
  { base with exc := { base.exc with entries := (List.range 32).map fun i =>
      { openEntry (i + 1) .loopFault none .note with state := st }, next := 33 } }

theorem wit_ExceptionsAreRaised :
    base.store.work.response .noBooking = .retry ∧ base.store.work.limit .noBooking ≠ 0 ∧
    base.store.work.response .windowEarly = .note ∧ base.store.work.response .bookingInUse = .hold ∧
    ({ base with store := { base.store with work := { base.store.work with
      responses := base.store.work.responses.set 3 .silent } } }).store.work.response .plateMismatch = .silent ∧
    base.exc.next ≤ 65535 ∧ base.exc.entries.length < 32 ∧ (fullTable .resolved).exc.entries.length = 32 ∧
    ((fullTable .resolved).exc.entries.find? fun e => e.state == .resolved).isSome = true ∧
    ((fullTable .logged).exc.entries.find? fun e => e.state == .resolved) = none ∧
    ((fullTable .logged).exc.entries.find? fun e => e.state == .logged).isSome = true ∧
    ((fullTable .opened).exc.entries.find? fun e => e.state == .logged) = none ∧
    (inLane .checking overridden).visit .l1 = some overridden ∧ checkOf .sealMismatch (some .front) = some .sealFront ∧
    (overridden.checks.get .sealFront).override ≠ none ∧ (v5.checks.get .sealFront).override = none ∧
    ((inLane .checking v5).lane .l1).state ≠ .trouble := by decide
theorem wit_bounds_entries (st : LaneState) (v : Visit) (e : Entry) (h : e.number = 1) :
    Bounds (withEntries st v [e]) := by
  have b := wit_bounds
  exact ⟨b.windows, b.flags, by simp [withEntries, Config.entryMax], by simp [withEntries], by simp [withEntries, h], b.waiting, b.notices, b.lost⟩
theorem wit_RetriesAreCalled :
    let e := openEntry 1 .idUnreadable (some .front) .retry
    let s := withEntries .arriving v5 [e]
    let f := openEntry 1 .barrierFault none .retry
    let b := (withEntries .exiting v5 [f]).modLane .l1 (barrierIn .fault)
    s.power = true ∧ s.entry 1 = some e ∧ e.state = .opened ∧ e.response = .retry ∧ e.left ≠ none ∧ e.lane = some .l1 ∧
    (s.lane .l1).state = .arriving ∧ e.pos = some .front ∧ (s.lane .l1).visit = some v5 ∧ (v5.pos .front).cid = none ∧
    e.called = false ∧ e.retries + 1 < s.store.work.limit .idUnreadable ∧ s.store.work.limit .idUnreadable ≤ min 7 (1 + 1) ∧
    { v5 with front := { v5.front with cid := some cid } }.front.cid ≠ none ∧ b.entry 1 = some f ∧
    (b.lane .l1).state = .exiting ∧ (b.lane .l1).barrier.state = .fault ∧ (b.lane .l1).barrier.pending ≠ some .raise ∧
    b.input .l1 .downSense = false ∧ base.entry 1 = some .settingsRestored ∧ base.entry 2 = none ∧ CanAsk s ∧
    readAll readU16 [1, 0] = some 1 ∧ s.visit .l1 = some v5 ∧ e.visit = some v5.number ∧ v5.verdict = none ∧
    (s.posRec .l1 .front).cid = none := by decide
/-- The visit of booking 2 with the parts of FRONT in a phase, entry 1 theirs. -/
def extended (ph : Phase) (seen : List SeenSeal) (held : Option Survey) : Visit :=
  { holder with front := { holder.front with
      made := true
      sealPart := { holder.front.sealPart with move := some (1, .recorded), phase := ph, seen := seen, entry := some 1 }
      damage := { holder.front.damage with phase := ph, held := held, entry := some 1 } } }
/-- That visit in CHECKING with one entry under RETRY. -/
def extState (e : Entry) (v : Visit) : State := { withEntries .checking v [e] with book := books }
theorem wit_RetriesAreCalled_checking :
    let e (k : ExcKind) : Entry := openEntry 1 k (some .front) .retry
    let v := extended .extended [] none
    let s := extState (e .sealMissing) v
    let q := searchState true [searchEntry 0]
    s.entry 1 = some (e .sealMissing) ∧ (e .sealMissing).visit = (s.lane .l1).visit.map Visit.number ∧
    (s.lane .l1).visit = some v ∧ (s.lane .l1).state = .checking ∧ (v.pos .front).sealPart.entry = some 1 ∧
    (v.pos .rear).sealPart.entry ≠ some 1 ∧ (v.pos .front).damage.entry = some 1 ∧ (v.pos .rear).damage.entry ≠ some 1 ∧
    (v.pos .front).sealPart.move = some (1, .recorded) ∧ moveAt (s.claimedMoves .l1) 1 = some box ∧
    (v.pos .front).sealPart.phase = .extended ∧ ((extended .closed [] none).pos .front).sealPart.phase ≠ .extended ∧
    (box.seals.filter fun c => !((v.pos .front).sealPart.seen.any fun y => y.text == c)) ≠ [] ∧
    (box.seals.filter fun c => !([(⟨[65, 49], .reader⟩ : SeenSeal)].any fun y => y.text == c)) = [] ∧
    min 7 ((e .sealMissing).retries + 1) < (limiting .sealMissing 2 s).store.work.limit .sealMissing ∧
    s.store.work.limit .sealMissing ≤ min 7 ((e .sealMissing).retries + 1) ∧
    min 7 ((e .surveyMissing).retries + 1) < (limiting .surveyMissing 2 s).store.work.limit .surveyMissing ∧
    s.store.work.limit .surveyMissing ≤ min 7 ((e .surveyMissing).retries + 1) ∧
    (v.pos .front).damage.held = none ∧ (v.pos .front).damage.graded = none ∧
    ((extended .extended [] (some ⟨[], 1⟩)).pos .front).damage.held ≠ none ∧
    q.entry 1 = some (searchEntry 0) ∧ (q.lane .l1).state = .awaitingHost ∧ (searchEntry 0).pos = none ∧
    (searchEntry 0).visit = (q.lane .l1).visit.map Visit.number := by decide
theorem wit_RetriesAreCalled_bounds (k : ExcKind) (v : Visit) :
    Bounds (extState (openEntry 1 k (some .front) .retry) v) := by
  have b := wit_bounds
  exact ⟨books_balance.windows, books_flags, by simp [extState, withEntries, Config.entryMax], by simp [extState, withEntries],
    by simp [extState, withEntries, openEntry], b.waiting, b.notices, b.lost⟩
theorem wit_RetriesAreCalled_again : Bounds (withEntries .arriving v5 [openEntry 1 .idUnreadable (some .front) .retry]) ∧
    (let e := openEntry 1 .surveyMissing (some .front) .hold
     let v := extended .extended [] (some ⟨[], 1⟩)
     let gone := extended .closed [] none
     let w : Visit := { gone with front := { gone.front with damage := { gone.front.damage with outcome := .unsurveyed } } }
     let s (v : Visit) : State := extState e v
     CanAsk (s v) ∧ (s v).entry 1 = some e ∧ e.state = .opened ∧ e.lane = some .l1 ∧ (s v).visit .l1 = some v ∧
     e.visit = some v.number ∧ v.verdict = none ∧ ((s v).lane .l1).state = .checking ∧ (v.pos .front).damage.entry = some 1 ∧
     (v.pos .rear).damage.entry ≠ some 1 ∧ (v.pos .front).damage.held ≠ none ∧ (w.pos .front).damage.graded = none ∧
     (w.pos .front).damage.held = none ∧ (w.pos .front).damage.phase = .closed ∧
     (w.pos .front).damage.outcome = .unsurveyed ∧ (w.pos .front).damage.entry = some 1) := by
  have b := wit_bounds
  exact ⟨⟨b.windows, b.flags, by simp [withEntries, Config.entryMax], by simp [withEntries], by simp [withEntries, openEntry],
    b.waiting, b.notices, b.lost⟩, by decide⟩
/-- R164 and R112: RETRY_AGAIN with a held survey in an EXTENDED part clears the entry and closes the part. -/
theorem test_retry_again_held :
    let t := after (.retryAgain 7 [1, 0])
      (extState (openEntry 1 .surveyMissing (some .front) .hold) (extended .extended [] (some ⟨[], 1⟩)))
    (t.visit .l1).map (fun v => v.front.damage.phase) = some .closed ∧ t.exc.entries.map (·.outcome) = [some .cleared] := by decide
theorem wit_RetriesAreCalled_motions :
    let e := openEntry 1 .barrierFault none .retry
    let v := decided .admitIn
    let s (v : Visit) (is : List Input) : State := (withEntries .decided v [e]).modLane .l1 fun x => is.foldl lit
      { x with barrier := ⟨.fault, some .raise, true, false, none⟩ }
    (s v []).entry 1 = some e ∧ ((s v []).lane .l1).state = .decided ∧ ((s v []).lane .l1).barrier.state = .fault ∧
    ((s v []).lane .l1).barrier.pending = some .raise ∧ ((s v []).lane .l1).visit = some v ∧ v.verdict ≠ none ∧
    (s v []).input .l1 .upSense = false ∧ (s v [.upSense]).input .l1 .upSense = true ∧
    ((s v []).lane .l1).barrier.faultMark = true ∧ v5.verdict = none ∧ (s v5 []).input .l1 .downSense = false ∧
    (((withEntries .decided v [e]).modLane .l1 (barrierIn .up)).lane .l1).barrier.state ≠ .fault := by decide
theorem wit_RetriesAreCalled_rearmed :
    let e (k : ExcKind) (p : Option Pos) : Entry := openEntry 1 k p .hold
    let gone := extended .closed [] none
    let w : Visit := { gone with front := { gone.front with sealPart := { gone.front.sealPart with outcome := .missing } } }
    let s := extState (e .sealMissing (some .front)) w
    let held (k : ExcKind) (es : List Entry) : State :=
      (withEntries .trouble (searching .failed) (e k none :: es)).modLane .l1 fun x => { x with interrupted := some .awaitingHost }
    (s.entry 1 = some (e .sealMissing (some .front)) ∧ (e .sealMissing (some .front)).pos ≠ none ∧
      s.visit .l1 = some w ∧ (w.pos .front).sealPart.entry = some 1 ∧ (w.pos .rear).sealPart.entry ≠ some 1 ∧
      (w.pos .front).sealPart.phase = .closed ∧ (w.pos .front).sealPart.outcome = .missing ∧ box.kind = .deliverFull ∧
      (w.pos .front).sealPart.seen = [] ∧ (w.checks.get .sealFront).override = none ∧ s.store.work.mask .reread = true ∧
      s.link.noticeCount < 32) ∧
    ((held .noBooking []).entry 1 = some (e .noBooking none) ∧ ((held .noBooking []).lane .l1).state = .trouble ∧
      (held .noBooking []).exc.unrecorded.get .l1 = false ∧ (searching .failed).verdict = none ∧
      openEntry 2 .loopFault none .hold ∈ (held .noBooking [openEntry 2 .loopFault none .hold]).exc.entries ∧
      ((withEntries .awaitingHost (searching .waiting) [searchEntry 0]).lane .l1).state ≠ .trouble) ∧
    (held .barrierFault []).entry 1 = some (e .barrierFault none) ∧
    (((held .barrierFault []).modLane .l1 (barrierIn .fault)).lane .l1).barrier.state = .fault ∧
    (((withEntries .exiting v5 [e .barrierFault none]).modLane .l1 (barrierIn .up)).lane .l1).barrier.state ≠ .fault := by decide
theorem wit_EntriesAreResolved :
    let e := openEntry 1 .loopFault none .hold
    let s := (withEntries .trouble v5 [e]).modLane .l1 fun x => { x with interrupted := some .arriving }
    CanAsk s ∧ readAll readResolve [1, 0, 0] = some (1, .waive) ∧ readAll readResolve [1, 0, 2] = some (1, .turnAway) ∧
    readAll readResolve [1, 0, 3] = some (1, .cleared) ∧ s.entry 1 = some e ∧ s.entry 2 = none ∧ e.state ≠ .resolved ∧
    e.lane = some .l1 ∧ s.visit .l1 = some v5 ∧ e.visit = some v5.number ∧ s.takesOverride .l1 = true ∧
    e.kind ≠ .inspectionFull ∧ checkOf .sealMismatch (some .front) = some .sealFront ∧ (s.lane .l1).interrupted = some .arriving ∧
    (s.lane .l1).state = .trouble ∧ s.exc.unrecorded.get .l1 = false ∧
    (∀ d ∈ s.exc.entries, d.number ≠ 1 → ¬(d.state = .opened ∧ d.response = .hold ∧ d.lane = some .l1)) ∧
    v5.matchState = .notTried ∧ base.entry 1 = some .settingsRestored ∧ Entry.settingsRestored.lane = none ∧
    readAll readU8 [1] = some 1 ∧ laneOf 1 = some .l1 := by decide
/-- Lane 1 held by one entry, its state of before interrupted. -/
def heldIn (st : LaneState) (v : Visit) : State :=
  (withEntries .trouble v [openEntry 1 .loopFault none .hold]).modLane .l1 fun x => { x with interrupted := some st }
theorem wit_EntriesAreResolved_returns :
    let exits : Visit := { decided .admitIn with lowerHeld := true }
    let up := (heldIn .exiting exits).modLane .l1 (barrierIn .up)
    let marked := (heldIn .idle v5).modLane .l1 fun x => { x with closePending := true }
    let flagged : State := { heldIn .checking v5 with exc := { base.exc with unrecorded := base.exc.unrecorded.set .l1 true } }
    let e := openEntry 1 .loopFault none .hold
    (∀ st ∈ [LaneState.idle, .arriving, .awaitingHost, .checking, .decided, .exiting],
      ((heldIn st v5).lane .l1).interrupted = some st ∧ (heldIn st v5).entry 1 = some e ∧ CanAsk (heldIn st v5)) ∧
    (e.kind ≠ .inspectionFull ∧ e.kind ≠ .signStalled ∧ e.kind ≠ .barrierFault) ∧ checkOf e.kind e.pos = none ∧
    (∀ m ∈ [MatchState.failed, .waiting, .notTried], (heldIn .arriving (searching m)).visit .l1 = some (searching m)) ∧
    (marked.lane .l1).closePending = true ∧ ((heldIn .idle v5).lane .l1).closePending = false ∧
    base.input .l1 .stop = false ∧ (on1 fun x => lit x .stop).input .l1 .stop = true ∧
    (up.lane .l1).visit = some exits ∧ (up.lane .l1).barrier.state = .up ∧ up.input .l1 .exit = false ∧
    ((heldIn .exiting v5).modLane .l1 (barrierIn .down)).input .l1 .downSense = false ∧ (decided .admitIn).verdict ≠ none ∧
    flagged.exc.unrecorded.get .l1 = true ∧ (flagged.lane .l1).sign.reported = false ∧ v5.verdict ≠ some .inspect ∧
    ((flagged.modLane .l1 (barrierIn .down)).lane .l1).barrier.state ≠ .fault := by
  decide
/-- R46: returned into EXITING with the lower held mark set and the barrier UP, the lower is commanded and the mark cleared. -/
theorem test_return_lowers :
    let t := after (.resolve 7 [1, 0, 1])
      ((heldIn .exiting { decided .admitIn with lowerHeld := true }).modLane .l1 (barrierIn .up))
    ((t.lane .l1).state, (t.lane .l1).lamp, (t.lane .l1).barrier.state) = (.exiting, .green, .lowering) ∧
    (t.visit .l1).map (·.lowerHeld) = some false := by decide
/-- R46: returned into ARRIVING with match state FAILED, the verdict is formed at once, TURN_AWAY. -/
theorem test_return_failed :
    let t := after (.resolveLane 7 [1]) (heldIn .arriving (searching .failed))
    (t.visit .l1).map (fun v => (v.verdict, v.reason)) = some (some .turnAway, some .noClaim) ∧ t.exc.entries.map (·.outcome) = [some .uphold] :=
  by decide
theorem wit_EntriesAreResolved_bounds :
    Bounds (withEntries .trouble v5 [openEntry 1 .loopFault none .hold]) := wit_bounds_entries _ _ _ rfl
theorem wit_ResolvedEntriesAreCleared : CanAsk (fullTable .resolved) ∧
    (fullTable .resolved).exc.entries.filter (fun e => e.state != .resolved) = [] := by decide

/-! ### Witnesses: bays, settings, the gate, reports -/

/-- A visit's record at a bay. -/
def hold (n : Nat) : BayHold := ⟨n, .l1, 2, [cid], 600, n⟩

/-- The part with bays and visits that wait. -/
def withPool (bs : List (Option BayHold)) (ws : List BayHold) : State := { base with pool := ⟨bs, ws⟩ }

theorem wit_BaysAreKept :
    let free := withPool [some (hold 5), none] []
    let full := withPool [some (hold 5), some (hold 6)] [hold 7, hold 8]
    CanAsk free ∧ readAll (readPair readU8 (readOpt readU16)) [1, 0] = some (1, none) ∧
    readAll (readPair readU8 (readOpt readU16)) [2, 1, 6, 0] = some (2, some 6) ∧
    readAll (readPair readU8 (readOpt readU16)) [3, 0] = some (3, none) ∧ free.pool.bays[1 - 1]? = some (some (hold 5)) ∧
    free.pool.bays[2 - 1]? = some none ∧ free.pool.waiting = [] ∧ full.pool.bays[2 - 1]? = some (some (hold 6)) ∧
    (∀ i < 2 - 1, full.pool.bays[i]? = some (some (hold 5))) ∧ full.pool.waiting = [hold 7] ++ hold 8 :: [] ∧
    readAll readU16 [8, 0] = some 8 ∧ readAll readU16 [9, 0] = some 9 ∧ (∀ h ∈ full.pool.waiting, h.visit ≠ 9) := by decide
/-- A visit with the verdict INSPECT and its bay step pending, in TROUBLE out of DECIDED. -/
def inspected : Visit := { v5 with verdict := some .inspect, reason := some (.check .watch .watchHit), bayStep := .pending }
/-- Lane 1 with it and entries, its unrecorded-hold flag, and a pool. -/
def inspecting (es : List Entry) (flag : Bool) (n : Nat) : State :=
  let s := (withEntries .trouble inspected es).modLane .l1 fun x => { x with interrupted := some .decided }
  { s with exc := { s.exc with unrecorded := s.exc.unrecorded.set .l1 flag }
           pool := ⟨[some (hold 6)], (List.range n).map fun i => hold (7 + i)⟩ }
theorem wit_BaysAreRequested :
    let e : Entry := openEntry 1 .inspectionFull none .hold
    let s := inspecting [e] false 16
    let f := inspecting [] true 16
    let free : State := { inLane .decided inspected with pool := ⟨[some (hold 6), none, none], []⟩ }
    let short : State := { inLane .decided inspected with pool := ⟨[some (hold 6), none], [hold 7]⟩ }
    CanAsk s ∧ CanAsk f ∧ s.visit .l1 = some inspected ∧ inspected.handed = false ∧ (s.lane .l1).state = .trouble ∧
    (s.lane .l1).interrupted = some .decided ∧ readAll readResolve [1, 0, 0] = some (1, .waive) ∧
    readAll readResolve [1, 0, 1] = some (1, .uphold) ∧ readAll readResolve [1, 0, 2] = some (1, .turnAway) ∧
    s.entry 1 = some e ∧ e.response = .hold ∧ e.visit = some inspected.number ∧ s.exc.unrecorded.get .l1 = false ∧
    (∀ c ∈ s.exc.entries, c.number ≠ 1 → ¬(c.state = .opened ∧ c.response = .hold ∧ c.lane = some .l1)) ∧
    readAll readU8 [1] = some 1 ∧ laneOf 1 = some .l1 ∧ f.exc.unrecorded.get .l1 = true ∧
    (∀ c ∈ f.exc.entries, c.lane = some .l1 → c.state ≠ .opened) ∧ free.pool.waiting = [] ∧
    free.pool.bays = [some (hold 6)] ++ none :: [none] ∧ (∀ b ∈ [some (hold 6)], b ≠ none) ∧ short.pool.waiting ≠ [] ∧
    (inspecting [] false 15).pool.waiting.length < 16 ∧ 16 ≤ s.pool.waiting.length ∧ (∀ b ∈ s.pool.bays, b ≠ none) ∧
    ((free.requestBay .l1).visit .l1).map (fun y => (y.bay, y.handed)) = some (some 2, true) ∧
    ((short.requestBay .l1).pool.waiting.map (·.visit)) = [7, 5] ∧
    (((after (.resolve 7 [1, 0, 1]) s).visit .l1).map fun y => (y.verdict, y.bayStep, y.handed)) =
      some (some .inspect, .done, true) := by
  refine ⟨?_, ?_, ?_, ?_, ?_, ?_, ?_, ?_, ?_, ?_, ?_, ?_, ?_, ?_, ?_, ?_, ?_, ?_, ?_, ?_, ?_, ?_, ?_, ?_, ?_, ?_, ?_, ?_⟩ <;> decide
theorem wit_SettingsAreSet :
    CanAsk base ∧ base.store.saving = none ∧ readAll readSet [1, 0, 0, 1] = some ⟨1, 0, 256⟩ ∧
    readAll readSet [27, 12, 1, 0] = some ⟨27, 12, 1⟩ ∧ readAll readSet [28, 0, 0, 0] = some ⟨28, 0, 0⟩ ∧
    readAll readSet [6, 0, 0, 0] = some ⟨6, 0, 0⟩ ∧ readAll readSet [24, 1, 1, 0] = some ⟨24, 1, 1⟩ ∧
    kindOf 1 = some .idUnreadable ∧ ExcKind.idUnreadable.fixed = false ∧ ExcKind.idUnreadable.allows .retry = true ∧
    kindOf 16 = some .watchHit ∧ ExcKind.watchHit.fixed = true ∧ ExcKind.idUnreadable.retrying = true ∧
    ExcKind.idConflict.retrying = false ∧ highestAssigned base.pool.bays = 0 ∧
    highestAssigned (withPool [none, some (hold 5)] []).pool.bays = 2 ∧ base.store.work.severeThreshold = 200 ∧
    base.store.work.noteThreshold = 40 ∧ readAll (readPair readU8 readU8) [5, 48] = some (5, 48) ∧
    readAll (readPair readU8 readU8) [24, 17] = some (24, 17) ∧ readAll (readPair readU8 readU8) [24, 21] = some (24, 21) := by decide
theorem wit_SettingsAreStored :
    let job : SaveJob := ⟨.default, 7, 1⟩
    let busy : State := { base with store := { base.store with saving := some job } }
    let wait : State := { base with store := { base.store with saving := some job, restartTag := some 9 } }
    CanAsk base ∧ CanAsk busy ∧ busy.store.saving ≠ none ∧ base.store.saving = none ∧ busy.power = true ∧
    busy.store.saving = some job ∧ busy.store.restartTag = none ∧ wait.store.restartTag = some 9 ∧ (9 : Byte) ≠ 0 ∧
    wait.link.rxBuffer = [] ∧ base.store.image = .neverWritten ∧
    ({ base with store := { base.store with image := .whole .default } }).store.image = .whole .default ∧
    Settings.default.activeLow = base.store.work.activeLow ∧ base.pool.waiting = [] := by decide
theorem wit_GateOpensAndShuts : CanAsk base ∧ base.gate = .opened ∧ CanAsk { base with gate := .shut } ∧
    base.clock.valid = true ∧ State.reset.clock.valid = false ∧ CanAsk { base with gate := .draining } := by decide
theorem wit_ReportsAreGiven : CanAsk base ∧ readAll readU8 [8] = some 8 ∧ laneOf 8 = some .l8 ∧ laneOf 9 = none ∧
    readAll readU16 [1, 0] = some 1 := by decide

/-! ### The manual's worked examples, one step each -/

/-- A text of the examples. -/
def qznu : Text := [81, 90, 78, 85, 49, 48, 52, 55, 50, 57, 53]
/-- TKLU3805450. -/
def tklu : Text := [84, 75, 76, 85, 51, 56, 48, 53, 52, 53, 48]

/-- Section 4.8.1: QZNU1047295 and TKLU3805450 pass, TKLU3805458, QZNU1047265 and QZNU1O47295 fail. -/
theorem test_check_digits : cidOk qznu = true ∧ cidOk tklu = true ∧ cidOk (tklu.set 10 56) = false ∧
    cidOk (qznu.set 9 54) = false ∧ cidOk (qznu.set 5 79) = false := by decide

/-- The books of section 1.7.1 at minute 619. -/
def books171 : BookUnit :=
  ⟨[⟨40117, .opened, 19, none, [{ box with length := .l40 }], 2, none, false, none⟩,
      ⟨40122, .opened, 19, none, [box], 1, none, false, none⟩,
      ⟨40105, .inLane, 19, none, [{ box with length := .l40 }], 2, some (.l3, 1), false, none⟩], [],
    base.book.windows.mapIdx fun i w =>
      if i = 19 then ⟨40, 5, 33, false, false⟩ else if i = 20 then ⟨40, 37, 1, false, false⟩
      else { w with expired := decide (i < 19) }⟩

/-- Section 1.7.1: the second that brings minute 620 expires window 19 with a notice of two bookings. -/
theorem test_expiry : let t := after .gateClockSecond { at_ 1 619 59 with book := books171 }
    t.clock = ⟨1, 620, 0, true⟩ ∧ t.book.window 19 = ⟨40, 2, 33, true, false⟩ ∧
      t.book.window 20 = ⟨40, 37, 1, false, false⟩ ∧ t.book.final = [40117, 40122] ∧
      t.link.outbox = [.notice ⟨.windowExpired, [19, 2, 0]⟩] := by decide +kernel

/-- Section 1.7.1: the late claim at minute 625, and its refusal over 38 booked units. -/
theorem test_late_claim :
    let b := books171.expire 19
    let r := b.claim ⟨625, 15, 20, false⟩ 40117 .l5 9
    r.2 = .claimed .late 20 true ∧ r.1.window 20 = ⟨40, 39, 1, false, false⟩ ∧ r.1.final = [40122] ∧
      (r.1.find 40117).map (fun k => (k.state, k.window, k.moved)) = some (.inLane, 20, true) ∧
      ((b.modWindow 20 fun w => { w with booked := 38 }).claim ⟨625, 15, 20, false⟩ 40117 .l5 9).2 = .lateFull 20 ∧
      (books171.claim ⟨612, 15, 20, false⟩ 40117 .l5 9).2 = .claimed .grace 19 false := by decide +kernel

/-- Section 1.7.1: the release at minute 631 after an ADMIT exit. -/
theorem test_release :
    let b := (((books171.expire 19).claim ⟨625, 15, 20, false⟩ 40117 .l5 9).1).release 631 40117 .exit
    b.window 20 = ⟨40, 37, 3, false, false⟩ ∧ b.final = [40122, 40117] ∧
      (b.find 40117).map (fun k => (k.state, k.window, k.admittedMinute)) = some (.admitted, 20, some 631) := by decide +kernel

/-- Section 1.7.2: the early claim without and with pull-forward. -/
theorem test_early_claim :
    let b : BookUnit := ⟨[⟨40230, .opened, 24, none, [{ box with kind := .returnEmpty }], 1, none, false, none⟩], [],
      base.book.windows.mapIdx fun i w =>
        if i = 23 then ⟨40, 30, 6, false, false⟩ else if i = 24 then ⟨40, 35, 0, false, false⟩ else w⟩
    let off := b.claim ⟨690, 15, 20, false⟩ 40230 .l2 9
    let on := b.claim ⟨690, 15, 20, true⟩ 40230 .l2 9
    off.2 = .claimed .early 24 false ∧ off.1.windows = b.windows ∧ on.2 = .claimed .onTime 23 true ∧
      on.1.window 23 = ⟨40, 31, 6, false, false⟩ ∧ on.1.window 24 = ⟨40, 34, 0, false, false⟩ := by decide +kernel

/-- Section 3.6.1: in a lane of active-low wiring the raw level low starts the settle, and a return ends it. -/
theorem test_chatter :
    let w : Settings := { Settings.default with
      activeLow := Settings.default.activeLow.set .l3 ⟨true, false, false, false, false, false⟩ }
    let s := ({ base with store := { base.store with work := w } }).modLane .l3 fun x =>
      { x with state := .idle, lines := x.lines.set .arrival ⟨true, false, none, none⟩ }
    let t := after (.rawLevelChange .l3 .arrival false) s
    t.line .l3 .arrival = ⟨false, false, some 20, none⟩ ∧
      (after (.rawLevelChange .l3 .arrival true) t).line .l3 .arrival = ⟨true, false, none, none⟩ ∧
      ((after (.settleExpiry .l3 .arrival) t).lane .l3).state = .arriving ∧
      ((after (.settleExpiry .l3 .arrival) t).lane .l3).stuck.arrival = ⟨some 6000, false⟩ := by decide
/-- Section 3.6.1: a settle that expires under a force raises the counter alone. -/
theorem test_forced_settle :
    let s := on1 fun x => { x with state := .idle, lines := x.lines.set .arrival ⟨true, false, some 1, some false⟩ }
    let t := after (.settleExpiry .l1 .arrival) s
    (t.lane .l1).state = .idle ∧ (t.lane .l1).counters.forcedRaw = 1 ∧
      ((after (.unforceLine 7 [1, 0]) t).lane .l1).state = .arriving := by decide

/-- Section 3.6.2: the second truck reverses the arm. -/
theorem test_reversal :
    let s := on1 fun x => { x with
      state := .exiting, visit := some { v5 with verdict := some .admitIn }, lamp := .green
      barrier := ⟨.lowering, none, false, false, some 48⟩, counters := { x.counters with reversals := 4 }
      lines := x.lines.set .exit ⟨true, false, some 1, none⟩ }
    let t := after (.settleExpiry .l1 .exit) s
    (t.lane .l1).barrier = ⟨.raising, none, false, false, some 60⟩ ∧ (t.lane .l1).counters.reversals = 5 ∧
      (t.visit .l1).map Visit.passage = some true ∧ (t.lane .l1).lamp = .green := by decide

/-- Section 3.6.3: the expiry of the lower timer stores BARRIER_FAULT, detail 2, under RETRY. -/
theorem test_lower_fails :
    let s := (withEntries .exiting { v5 with number := 2044, verdict := some .admitIn } []).modLane .l1 fun x =>
      { x with barrier := ⟨.lowering, none, false, false, some 1⟩ }
    let t := after (.lowerTimerExpiry .l1) s
    (t.lane .l1).barrier = ⟨.fault, some .lower, true, false, none⟩ ∧
      t.exc.entries = [⟨1, .barrierFault, some .l1, some 2044, none, 2, 600, .retry, 0, .opened, none, some 30, false⟩] := by
  decide

/-- Section 4.8.2: reads 1 and 2 of the twin load. -/
theorem test_twin_reads :
    let t := after (.idRead 7 (readBody [3] cid)) (inLane .arriving v5)
    (t.visit .l1).map (fun v => (v.front.cid, v.rear.cid)) = some (some cid, none) ∧
      data (.idRead 7 (readBody [3] cid)) (inLane .arriving v5) = [0] ∧ data (.idRead 7 (readBody [1] cid)) t = [1] ∧
      ((after (.idRead 7 (readBody [1] cid)) t).lane .l1).counters.duplicates = 1 := by decide
/-- Section 4.8.2: read 3 is a misread charged to FRONT, and read 5 a conflict that holds the lane. -/
theorem test_twin_conflict :
    let v : Visit := { v5 with front := { v5.front with made := true, cid := some cid } }
    let s := (inLane .arriving v).modLane .l3 fun x =>
      { x with state := .arriving, visit := some { v5 with number := 2298, front := { v5.front with cid := some qznu } } }
    let bad := after (.idRead 7 (readBody [2] (tklu.set 10 56))) s
    let t := after (.idRead 7 (readBody [1] qznu)) s
    (bad.visit .l1).map (fun w => (w.front.misreads, w.rear.misreads)) = some (1, 0) ∧
      (bad.lane .l1).counters.misreads = 1 ∧ (t.lane .l1).state = .trouble ∧ (t.lane .l1).interrupted = some .arriving ∧
      t.exc.entries.getLast?.map (fun e => (e.kind, e.pos, e.detail, e.response)) =
        some (.idConflict, some .rear, 2, .hold) ∧ t.lane .l3 = s.lane .l3 := by decide

/-- The default terms of a grade. -/
def gradeOf (known depth : Nat) (ds : List Defect) : DamagePart :=
  DamagePart.fresh.grade ⟨depth, ⟨3, 3, 4, 6, 6⟩, 40, 200, known⟩ ⟨ds, 1⟩

/-- The survey of section 6.11.1. -/
def survey611 : List Defect :=
  [⟨.left, .dent, 24, 300⟩, ⟨.left, .scrape, 6, 900⟩, ⟨.doorEnd, .dent, 40, 150⟩, ⟨.roof, .tear, 20, 500⟩,
    ⟨.right, .dent, 4, 2000⟩]

/-- Section 6.11.1: sums, index, excess, grade and survivors; known damage 30 makes it CLEAN. -/
theorem test_graded_survey : let g := gradeOf 0 6 survey611
    g.sums = ⟨22, 0, 0, 16, 55⟩ ∧ g.index = 61 ∧ g.excess = 61 ∧ g.outcome = .noted ∧ g.survived = 4 ∧
      (gradeOf 30 6 survey611).outcome = .clean ∧ (gradeOf 100 6 survey611).excess = 0 := by decide
/-- Section 6.11.2: the limits. -/
theorem test_grade_limits :
    ((gradeOf 0 6 [⟨.roof, .hole, 8, 10⟩]).index, (gradeOf 0 6 [⟨.roof, .hole, 8, 10⟩]).outcome) = (3, .severe) ∧
    ((gradeOf 0 6 [⟨.left, .hole, 40, 200⟩]).index, (gradeOf 0 6 [⟨.left, .hole, 40, 200⟩]).outcome) = (30, .clean) ∧
    (gradeOf 0 6 [⟨.left, .dent, 100, clampArea 65535⟩]).index = 112 ∧
    (gradeOf 0 6 [⟨.left, .scrape, 50, clampArea 0⟩]).index = 1 ∧
    ((gradeOf 0 6 (List.replicate 2 ⟨.doorEnd, .hole, 255, 4095⟩)).index,
      (gradeOf 0 6 (List.replicate 2 ⟨.doorEnd, .hole, 255, 4095⟩)).outcome) = (375, .severe) ∧
    (gradeOf 0 6 [⟨.roof, .hole, 0, 1⟩]).outcome = .clean ∧ (gradeOf 0 0 [⟨.roof, .hole, 0, 1⟩]).outcome = .severe := by decide

/-- Section 8.7.1: the group of three waits on a credit of 2 and is sent whole on READY 4, leaving credit 1. -/
theorem test_ready_sends :
    let g : Group := ⟨2701, [⟨.goToStop [67, 52] 12, false⟩, ⟨.goToStop [69, 49] 3, false⟩, ⟨.seeClerk 16, false⟩]⟩
    let s := signed .decided (some { v5 with number := 2701, verdict := some .admitIn }) [g] 2
    let t := after (.ready .l1 4) s
    (t.lane .l1).sign.credit = 1 ∧ (t.lane .l1).sign.stall = none ∧ (t.visit .l1).map Visit.delivered = some true ∧
      (t.lane .l1).sign.out.length = 4 ∧ (t.lane .l1).sign.queue.map (·.visit) = [2701] := by decide +kernel

/-- Section 10.9.1, event 1: a full table gives up its only RESOLVED entry; event 4: an all OPEN table loses the exception. -/
theorem test_full_table :
    let es := (List.range 32).map fun i => { openEntry (900 + i) .loopFault none .hold with
      state := if i = 0 then .logged else if i = 1 then .resolved else .opened }
    let s : State := { (inLane .checking v5) with exc := { base.exc with entries := es, next := 932 } }
    let o : State := { s with exc := { s.exc with entries := es.map fun e => { e with state := .opened } } }
    let r : Raise := ⟨.damageNoted, some .l4, some 9, some .front, 61, .inspect⟩
    let t := (s.raiseExc r).1
    let u := (o.raiseExc ⟨.containerMismatch, some .l1, some 5, some .front, 1, .inspect⟩).1
    t.exc.entries.map (·.number) = 900 :: (List.range 30).map (· + 902) ++ [932] ∧
      t.exc.entries.getLast?.map (·.state) = some .logged ∧ u.exc.lost = 1 ∧ u.exc.full = true ∧
      u.exc.unrecorded.a1 = true ∧ (u.lane .l1).state = .trouble := by decide

/-- Section 11.5: GATE_SHUT with lanes in service closes the idle ones and drains. -/
theorem test_gate_shut :
    let st (l : LaneNo) : LaneState := match l with
      | .l1 | .l5 => .idle | .l2 => .checking | .l3 | .l7 => .closed | .l4 => .exiting | .l6 => .trouble | .l8 => .arriving
    let s := allLanes.foldl (fun (s : State) l => s.modLane l fun x => { x with state := st l }) base
    let t := after (.gateShut 7 []) s
    t.gate = .draining ∧ allLanes.map (fun l => ((t.lane l).state, (t.lane l).closePending)) =
      [(.closed, false), (.checking, true), (.closed, false), (.exiting, true), (.closed, false), (.trouble, true),
        (.closed, false), (.arriving, true)] := by decide

/-! ### Replies and statuses -/

/-- R170: the reply kind is the request kind with bit 7 set; the status of a request out of place. -/
theorem test_statuses : status (.openLane 7 [1]) base = some .ok ∧ status (.openLane 7 [9]) base = some .range ∧
    status (.openLane 7 []) base = some .malformed ∧ status (.resetLane 7 [1]) base = some .wrongState ∧
    status (.cancel 7 [1, 0, 0, 0]) base = some .notFound ∧ status (.set 7 [1, 0, 0, 1]) base = some .clamped ∧
    status (.loadSettings 7 []) base = some .wrongState ∧ status (.gateOpen 7 []) base = some .ok ∧
    status (.plateRead 7 (readBody [] plate)) base = some .notApplied ∧ status (.bayRelease 7 [1, 0]) base = some .wrongState := by
  decide
/-- R178: GATE_OPEN is refused while the clock is invalid; R15: SET_CLOCK makes it valid. -/
theorem test_gate_needs_clock :
    let s : State := { State.reset with link := base.link }
    status (.gateOpen 7 []) s = some .wrongState ∧
      (after (.gateOpen 7 []) (after (.setClock 7 [1, 0, 88, 2, 0]) s)).gate = .opened := by decide +kernel
/-- R184: what IDENTIFY tells. -/
theorem test_identify : (data (.identify 7 []) base).take 6 = [0x31, 0x6A, 0x58, 0x08, 2, 8] := by decide
/-- R169: the CRC-16 of the digits 1 to 9 is 0x29B1, the check value of this polynomial and initial value. -/
theorem test_crc : crc16 [0x31, 0x32, 0x33, 0x34, 0x35, 0x36, 0x37, 0x38, 0x39] = 0x29B1 := by decide +kernel
/-- R141: the CLEAR frame is the encoding of tag 0, kind 3 and an empty body. -/
theorem test_clear_frame : clearFrame = encodeFrame 0 3 [] := by decide +kernel
/-- R174, R171: a write takes the settings as they stood, and a RESTART waits for it and for the reply that it forms. -/
theorem test_save :
    let s := after (.restart 9 []) (after (.saveSettings 7 []) base)
    let t := after .saveComplete s
    let u := after .replySend (after .noticeSend t)
    s.store.restartTag = some 9 ∧ s.store.image = .neverWritten ∧ t.store.image = .whole .default ∧
      t.store.restartTag = some 9 ∧ t.gate = .opened ∧ u.store.restartTag = none ∧ u.gate = .shut ∧
      u.link.outbox = [.reply ⟨9, 0xAA, .ok, []⟩] := by decide +kernel

end Sys2Proof.Tests
end

section
/-! SUPPORT. O2 and O8: a step on an empty queue, and the noninterference of the lanes: what the work of one lane, a request that
names one, and an event of one leave alone. -/

namespace Sys2Proof.Machine.VisitLaws

variable {s t u : State} {l : LaneNo}

/-! ### A step on an empty queue -/

theorem step_empty (h : s.pending = []) : step s = idle s := by
  unfold step
  rw [h]

theorem idle_act {i : Instr} (hp : s.power = true) (h : s.nextAct = some i) : idle s = exec i s := by
  unfold idle
  rw [if_neg (by simp [hp]), h]

theorem idle_pass (hp : s.power = true) (h : s.nextAct = none) : idle s = s.pass := by
  unfold idle
  rw [if_neg (by simp [hp]), h]

/-! ### What one lane's commands leave alone -/

/-- What a command that concerns one lane leaves alone (section 2.1, R179). -/
structure Apart (l : LaneNo) (s t : State) : Prop where
  others : ∀ m, m ≠ l → t.lane m = s.lane m
  flags : ∀ m, m ≠ l → t.exc.unrecorded.get m = s.exc.unrecorded.get m
  clock : t.clock = s.clock
  holds : t.holds = s.holds
  store : t.store = s.store
  gate : t.gate = s.gate ∨ s.gate = .draining ∧ t.gate = .shut

theorem apart_of_work (h : Work l s t) : Apart l s t :=
  ⟨h.one.others, h.one.flags, h.one.clock, h.act.steady.holds, h.act.steady.store, h.one.gate⟩

theorem Apart.refl (l : LaneNo) (s : State) : Apart l s s := ⟨fun _ _ => rfl, fun _ _ => rfl, rfl, rfl, rfl, .inl rfl⟩

/-- A reply concerns the transmit side alone. -/
theorem Apart.reply (h : Apart l s t) (tag kind : Byte) (st : Status) (data : List Byte) :
    Apart l s (t.reply tag kind st data) :=
  ⟨h.others, h.flags, h.clock, h.holds, h.store, h.gate⟩

/-- What is left alone from the frame taken on is left alone from before its taking. -/
theorem Apart.ofTaken {f : Frame} (hu : Taken s f u) (h : Apart l u t) : Apart l s t := by
  obtain ⟨rest, rfl⟩ := hu.fields
  exact ⟨h.others, h.flags, h.clock, h.holds, h.store, h.gate⟩

/-- Taking a frame keeps the bounds. -/
theorem bounds_taken {f : Frame} (hb : Bounds s) (hu : Taken s f u) : Bounds u := by
  obtain ⟨rest, rfl⟩ := hu.fields
  exact ⟨hb.windows, hb.flags, hb.entries, hb.ascending, hb.below, hb.waiting, hb.notices, hb.lost⟩

/-- An event of a lane is work of that lane, with power applied. -/
theorem event_apart {f : State → State} (hf : Work l s (f s)) (he : event s f = .next t) : Apart l s t := by
  cases he
  split
  · exact apart_of_work hf
  · exact .refl l s

/-! ### Requests that name a lane -/

/-- A reader whose first byte is the number of a lane, `lane` of what it reads. -/
def LeadsWithLane {α : Type} (p : Reader α) (lane : α → Nat) : Prop :=
  ∀ bs x rest, p bs = some (x, rest) → bs.head?.map BitVec.toNat = some (lane x)

theorem leads_readU8 : LeadsWithLane readU8 id := by
  intro bs x rest h
  cases bs with
  | nil => cases h
  | cons b bs => cases h; rfl

/-- Reading a lane number first and going on leads with that number. -/
theorem leads_bind {α : Type} {lane : α → Nat} (k : Nat × List Byte → Option (α × List Byte))
    (hk : ∀ n bs x rest, k (n, bs) = some (x, rest) → lane x = n) : LeadsWithLane (fun bs => readU8 bs >>= k) lane := by
  intro bs x rest h
  obtain ⟨⟨n, bs'⟩, hn, hx⟩ := Option.bind_eq_some_iff.mp h
  rw [leads_readU8 bs n bs' hn, hk n bs' x rest hx]; rfl

theorem leads_readPair {β : Type} (q : Reader β) : LeadsWithLane (readPair readU8 q) Prod.fst :=
  leads_bind _ fun n bs x rest h => by
    simp only [Option.bind_eq_bind, Option.pure_def, Option.bind_eq_some_iff, Option.some.injEq, Prod.mk.injEq] at h
    obtain ⟨-, -, rfl, -⟩ := h
    rfl

theorem leads_readAnswer : LeadsWithLane readAnswer AnswerReq.lane :=
  leads_bind _ fun n bs x rest h => by
    simp only [Option.bind_eq_bind, Option.pure_def, Option.bind_eq_some_iff, Option.some.injEq, Prod.mk.injEq] at h
    obtain ⟨-, -, -, -, rfl, -⟩ := h
    rfl

theorem leads_readId : LeadsWithLane readId IdReq.lane :=
  leads_bind _ fun n bs x rest h => by
    simp only [Option.bind_eq_bind, Option.pure_def, Option.bind_eq_some_iff, Option.some.injEq, Prod.mk.injEq] at h
    obtain ⟨-, -, -, -, rfl, -⟩ := h
    rfl

theorem leads_readSeal : LeadsWithLane readSeal SealReq.lane :=
  leads_bind _ fun n bs x rest h => by
    simp only [Option.bind_eq_bind, Option.pure_def, Option.bind_eq_some_iff, Option.some.injEq, Prod.mk.injEq] at h
    obtain ⟨-, -, -, -, -, -, rfl, -⟩ := h
    rfl

theorem leads_readSurvey : LeadsWithLane readSurvey SurveyReq.lane :=
  leads_bind _ fun n bs x rest h => by
    simp only [Option.bind_eq_bind, Option.pure_def, Option.bind_eq_some_iff, Option.some.injEq, Prod.mk.injEq] at h
    obtain ⟨-, -, -, -, rfl, -⟩ := h
    rfl

/-- The lane that a body names is the lane that its reader reads. -/
theorem LeadsWithLane.bodyLane {α : Type} {p : Reader α} {lane : α → Nat} (hp : LeadsWithLane p lane) {body : List Byte}
    {x : α} (hx : readAll p body = some x) : bodyLane body = laneOf (lane x) := by
  unfold readAll at hx
  split at hx
  · next y hy =>
    cases hx
    obtain ⟨b, hb, hl⟩ := Option.map_eq_some_iff.mp (hp _ _ _ hy)
    simp [Machine.bodyLane, hb, hl]
  · cases hx

/-- A request whose rule is work of the lane it names leaves the other lanes alone, whether it is taken, malformed or answered. -/
theorem request_apart {α : Type} {kind : Nat} {tag : Byte} {body : List Byte} {p : Reader α} {rule : State → α → Ans}
    {lane : α → Nat} (hp : LeadsWithLane p lane) (hr : ∀ u x, Bounds u → LaneRule (lane x) u (rule u x)) (hb : Bounds s)
    (hl : bodyLane body = some l) (he : request s kind tag body p rule = .next t) : Apart l s t := by
  rcases request_cases s kind tag body p rule with ⟨-, h⟩ | ⟨u, hu, ⟨-, h⟩ | ⟨x, hx, h⟩⟩ <;>
    obtain rfl : _ = t := Host.Outcome.next.inj (h.symm.trans he)
  · exact .refl l s
  · exact .ofTaken hu (Apart.refl l u |>.reply ..)
  · have hw := hr u x (bounds_taken hb hu)
    rw [LaneRule, ← hp.bodyLane hx, hl] at hw
    exact .ofTaken hu (apart_of_work hw |>.reply ..)

/-! ### Every command of one lane -/

theorem execRawLevelChange_apart {i : Input} {b : Bool} (hb : Bounds s) (he : execRawLevelChange l i b s = .next t) :
    Apart l s t := by
  have r1 : Work l s s := .refl hb
  cases he
  exact apart_of_work (.ite r1 (.ite ((r1.setRaw i b).readRaw i) (r1.setRaw i b)))

theorem execSignFrameGapTimeout_apart (hb : Bounds s) (he : execSignFrameGapTimeout l s = .next t) : Apart l s t := by
  refine event_apart ?_ he
  split
  · exact .refl hb
  · exact (Work.refl hb).signHear _

/-- A command that concerns one lane leaves every other lane alone. -/
theorem exec_apart {i : Instr} (hc : laneConcerned i = some l) (hb : Bounds s) (he : exec i s = .next t) : Apart l s t := by
  have r1 : Work l s s := .refl hb
  cases i with
  | rawLevelChange m k b => cases hc; exact execRawLevelChange_apart hb he
  | settleExpiry m k => cases hc; exact event_apart (r1.settleEnds k) he
  | loopStuckExpiry m k => cases hc; exact event_apart (.ite (r1.loopStuck k) r1) he
  | idSettleExpiry m => cases hc; exact event_apart (.ite r1.tryMatch r1) he
  | lookupTimeout m => cases hc; exact event_apart (.ite (r1.noBooking 2) r1) he
  | abandonExpiry m => cases hc; exact event_apart (.ite r1.abandonVisit r1) he
  | sealWaitExpiry m => cases hc; exact event_apart (.ite r1.sealWaitEnds r1) he
  | surveyWaitExpiry m => cases hc; exact event_apart (.ite r1.surveyWaitEnds r1) he
  | ready m c => cases hc; exact event_apart (r1.signReady c) he
  | signFrameReceived m bs => cases hc; exact event_apart (f := fun s => s.signHear l ((s.lane l).sign.rx ++ bs)) (r1.signHear _) he
  | signFrameGapTimeout m => cases hc; exact execSignFrameGapTimeout_apart hb he
  | stallTimerExpiry m => cases hc; exact event_apart (.ite r1.stallEnds r1) he
  | raiseTimerExpiry m => cases hc; exact event_apart (.ite (r1.motionFailed _) r1) he
  | lowerTimerExpiry m => cases hc; exact event_apart (.ite (r1.motionFailed _) r1) he
  | openLane tag body => exact request_apart leads_readU8 (fun _ n hu => ruleOpenLane_work hu n) hb hc he
  | closeLane tag body => exact request_apart leads_readU8 (fun _ n hu => ruleCloseLane_work hu n) hb hc he
  | getLane tag body => exact request_apart leads_readU8 (fun _ n hu => ruleGetLane_work hu n) hb hc he
  | getSign tag body => exact request_apart leads_readU8 (fun _ n hu => ruleGetSign_work hu n) hb hc he
  | resolveLane tag body => exact request_apart leads_readU8 (fun _ n hu => ruleResolveLane_work hu n) hb hc he
  | keyedBooking tag body => exact request_apart (leads_readPair _) (fun _ r hu => ruleKeyed_work hu r) hb hc he
  | forceLine tag body => exact request_apart (leads_readPair _) (fun _ r hu => ruleForce_work hu r) hb hc he
  | unforceLine tag body => exact request_apart (leads_readPair _) (fun _ r hu => ruleUnforce_work hu r) hb hc he
  | plateRead tag body => exact request_apart (leads_readPair _) (fun _ r hu => rulePlate_work hu r) hb hc he
  | override tag body => exact request_apart (leads_readPair _) (fun _ r hu => ruleOverride_work hu r) hb hc he
  | unoverride tag body => exact request_apart (leads_readPair _) (fun _ r hu => ruleUnoverride_work hu r) hb hc he
  | signText tag body => exact request_apart (leads_readPair _) (fun _ r hu => ruleSignText_work hu r) hb hc he
  | lookupAnswer tag body => exact request_apart leads_readAnswer (fun _ r hu => ruleAnswer_work hu r) hb hc he
  | idRead tag body => exact request_apart leads_readId (fun _ r hu => ruleIdRead_work hu r) hb hc he
  | sealRead tag body => exact request_apart leads_readSeal (fun _ r hu => ruleSealRead_work hu r) hb hc he
  | survey tag body => exact request_apart leads_readSurvey (fun _ r hu => ruleSurvey_work hu r) hb hc he
  | _ => cases hc

end Sys2Proof.Machine.VisitLaws

open Sys2Proof Sys2Proof.Machine Sys2Proof.Machine.VisitLaws in
/-- Settles O2: with nothing to do, the phase of the running second says which timers 10 ms bring on. -/
theorem emptyQueueGoesOn : Obligations.EmptyQueueGoesOn := by
  intro s hq
  rw [step_empty hq]
  refine ⟨fun hp => if_pos hp, fun hp i hi => idle_act hp hi, fun hp hi h10 => ?_, fun hp hi h10 h100 => ?_,
    fun hp hi h100 => ?_⟩
  all_goals rw [idle_pass hp hi, State.pass]
  · have h100 : (s.phase + 1) % 100 ≠ 0 := by omega
    simp [h10, h100]
  · simp [h10, h100, State.tickTimers]
  · simp [h100, State.tickTimers]

open Sys2Proof Sys2Proof.Machine Sys2Proof.Machine.VisitLaws in
/-- Settles O8: every command of one lane is work of that lane (`exec_apart`). -/
theorem lanesAreApart : Obligations.LanesAreApart := by
  intro i l s t hc hb he
  have h := exec_apart hc hb he
  exact ⟨h.others, h.flags, h.clock, h.holds, h.store, h.gate⟩
end

section
/-! SUPPORT. What the operations at the ends of a lane's visit come to: notices and lane states, the barrier's arms, discards, CLOSED,
IDLE and the opening of a visit. Each is said once: the lane's record after it, the Exception Table, and what it leaves alone. -/

namespace Sys2Proof.Machine.VisitLaws

variable {s t u : State} {l : LaneNo}

/-! ### The lane's record under updates of other fields -/

theorem setLane_self (s : State) (l : LaneNo) : s.setLane l (s.lane l) = s := by
  cases l <;> rfl

theorem setLane_setLane (s : State) (l : LaneNo) (x y : Lane) : (s.setLane l x).setLane l y = s.setLane l y := by
  cases l <;> rfl

theorem modLane_eq (s : State) (l : LaneNo) (f : Lane → Lane) : s.modLane l f = s.setLane l (f (s.lane l)) := rfl

section LaneOf
variable (s : State) (m : LaneNo)
@[simp] theorem lane_setExc (x : ExcTable) : State.lane { s with exc := x } m = s.lane m := rfl
@[simp] theorem lane_setBook (x : BookUnit) : State.lane { s with book := x } m = s.lane m := rfl
@[simp] theorem lane_setPool (x : BayPool) : State.lane { s with pool := x } m = s.lane m := rfl
@[simp] theorem lane_setNextVisit (x : Nat) : State.lane { s with nextVisit := x } m = s.lane m := rfl
@[simp] theorem lane_setLink (x : Link) : State.lane { s with link := x } m = s.lane m := rfl
@[simp] theorem lane_setGate (x : GateMode) : State.lane { s with gate := x } m = s.lane m := rfl
end LaneOf

/-! ### Notices and lane states -/

/-- A notice concerns the transmit side alone. -/
theorem queueNotice_link (s : State) (n : Notice) : s.queueNotice n = { s with link := (s.queueNotice n).link } := by
  unfold State.queueNotice
  split
  · rfl
  · split <;> rfl

section QueueNotice
variable (s : State) (n : Notice)
@[simp] theorem queueNotice_gate : (s.queueNotice n).gate = s.gate := by rw [queueNotice_link]
@[simp] theorem queueNotice_clock : (s.queueNotice n).clock = s.clock := by rw [queueNotice_link]
@[simp] theorem queueNotice_book : (s.queueNotice n).book = s.book := by rw [queueNotice_link]
@[simp] theorem queueNotice_nextVisit : (s.queueNotice n).nextVisit = s.nextVisit := by rw [queueNotice_link]
@[simp] theorem queueNotice_exc : (s.queueNotice n).exc = s.exc := by rw [queueNotice_link]
@[simp] theorem queueNotice_pool : (s.queueNotice n).pool = s.pool := by rw [queueNotice_link]
@[simp] theorem queueNotice_store : (s.queueNotice n).store = s.store := by rw [queueNotice_link]
@[simp] theorem queueNotice_holds : (s.queueNotice n).holds = s.holds := by rw [queueNotice_link]
@[simp] theorem queueNotice_lane (m : LaneNo) : (s.queueNotice n).lane m = s.lane m := by rw [queueNotice_link]; rfl
end QueueNotice

/-- A notice and a lane's record do not meet. -/
theorem queueNotice_setLane (s : State) (l : LaneNo) (x : Lane) (n : Notice) :
    (s.setLane l x).queueNotice n = (s.queueNotice n).setLane l x := by
  unfold State.queueNotice
  by_cases hm : s.store.work.mask n.kind = false
  · rw [if_pos hm, if_pos (by exact hm)]
  · rw [if_neg hm, if_neg (by exact hm)]
    by_cases hc : s.link.noticeCount < Config.noticeMax
    · rw [if_pos hc, if_pos (by exact hc)]; rfl
    · rw [if_neg hc, if_neg (by exact hc)]; rfl

/-- A change of a lane's state changes that state and the transmit side alone. -/
theorem changeLane_link (s : State) (l : LaneNo) (now : LaneState) (c : LaneCause) :
    s.changeLane l now c = { s.modLane l (fun x => { x with state := now }) with link := (s.changeLane l now c).link } := by
  unfold State.changeLane
  split
  · next h =>
    have hx : ({ s.lane l with state := now } : Lane) = s.lane l := by rw [← h]
    rw [modLane_eq, hx, setLane_self]
  · exact queueNotice_link _ _

section ChangeLane
variable (s : State) (l : LaneNo) (now : LaneState) (c : LaneCause)
@[simp] theorem changeLane_gate : (s.changeLane l now c).gate = s.gate := by rw [changeLane_link]; rfl
@[simp] theorem changeLane_clock : (s.changeLane l now c).clock = s.clock := by rw [changeLane_link]; rfl
@[simp] theorem changeLane_book : (s.changeLane l now c).book = s.book := by rw [changeLane_link]; rfl
@[simp] theorem changeLane_nextVisit : (s.changeLane l now c).nextVisit = s.nextVisit := by rw [changeLane_link]; rfl
@[simp] theorem changeLane_exc : (s.changeLane l now c).exc = s.exc := by rw [changeLane_link]; rfl
@[simp] theorem changeLane_pool : (s.changeLane l now c).pool = s.pool := by rw [changeLane_link]; rfl
@[simp] theorem changeLane_store : (s.changeLane l now c).store = s.store := by rw [changeLane_link]; rfl
@[simp] theorem changeLane_lane : (s.changeLane l now c).lane l = { s.lane l with state := now } := by
  rw [changeLane_link, lane_setLink, State.modLane_lane]
theorem changeLane_other {m : LaneNo} (h : m ≠ l) : (s.changeLane l now c).lane m = s.lane m := by
  rw [changeLane_link, lane_setLink, State.modLane_other _ _ _ h]
end ChangeLane

/-! ### What the work of a lane leaves alone beside it -/

/-- Books, bays, clock and settings stand as they stood, and so do the other lanes. -/
structure Beside (l : LaneNo) (s t : State) : Prop where
  book : t.book = s.book
  pool : t.pool = s.pool
  clock : t.clock = s.clock
  store : t.store = s.store
  others : ∀ m, m ≠ l → t.lane m = s.lane m

theorem Beside.refl (l : LaneNo) (s : State) : Beside l s s := ⟨rfl, rfl, rfl, rfl, fun _ _ => rfl⟩

theorem Beside.trans (h : Beside l s t) (k : Beside l t u) : Beside l s u :=
  ⟨k.book.trans h.book, k.pool.trans h.pool, k.clock.trans h.clock, k.store.trans h.store,
    fun m hm => (k.others m hm).trans (h.others m hm)⟩

theorem Beside.modLane (h : Beside l s t) (f : Lane → Lane) : Beside l s (t.modLane l f) :=
  h.trans ⟨rfl, rfl, rfl, rfl, fun _ hm => State.modLane_other _ _ _ hm⟩

theorem Beside.setExc (h : Beside l s t) (x : ExcTable) : Beside l s { t with exc := x } :=
  h.trans ⟨rfl, rfl, rfl, rfl, fun _ _ => rfl⟩

theorem Beside.setNextVisit (h : Beside l s t) (n : Nat) : Beside l s { t with nextVisit := n } :=
  h.trans ⟨rfl, rfl, rfl, rfl, fun _ _ => rfl⟩

theorem Beside.queueNotice (h : Beside l s t) (n : Notice) : Beside l s (t.queueNotice n) :=
  h.trans ⟨by simp, by simp, by simp, by simp, fun _ _ => by simp⟩

theorem Beside.changeLane (h : Beside l s t) (now : LaneState) (c : LaneCause) : Beside l s (t.changeLane l now c) :=
  h.trans ⟨by simp, by simp, by simp, by simp, fun _ hm => changeLane_other _ _ _ _ hm⟩

theorem Beside.ite {c : Prop} [Decidable c] (h : Beside l s t) (k : Beside l s u) : Beside l s (if c then t else u) := by
  split
  · exact h
  · exact k

/-! ### The arms of the barrier -/

/-- The lane's barrier has become `b`: besides it only the Exception Table and the transmit side may have changed. -/
structure ArmTo (l : LaneNo) (s : State) (b : Barrier) (t : State) : Prop where
  lane : t.lane l = { s.lane l with barrier := b }
  beside : Beside l s t
  nextVisit : t.nextVisit = s.nextVisit
  gate : t.gate = s.gate

theorem ArmTo.modBarrier (s : State) (l : LaneNo) (f : Barrier → Barrier) : ArmTo l s (f (s.barrier l)) (s.modBarrier l f) :=
  ⟨State.modLane_lane .., (Beside.refl l s).modLane _, rfl, rfl⟩

theorem ArmTo.trans {b c : Barrier} (h : ArmTo l s b t) (k : ArmTo l t c u) : ArmTo l s c u :=
  ⟨by rw [k.lane, h.lane], h.beside.trans k.beside, k.nextVisit.trans h.nextVisit, k.gate.trans h.gate⟩

/-- The arm leaves the barrier as it is. -/
theorem ArmTo.same (l : LaneNo) (s : State) : ArmTo l s (s.barrier l) s := ⟨rfl, .refl l s, rfl, rfl⟩

theorem ArmTo.barrier {b : Barrier} (h : ArmTo l s b t) : t.barrier l = b := by rw [State.barrier, h.lane]

theorem ArmTo.input {b : Barrier} (h : ArmTo l s b t) (i : Input) : t.input l i = s.input l i := by
  rw [State.input, h.lane]; rfl

theorem ArmTo.visit {b : Barrier} (h : ArmTo l s b t) : t.visit l = s.visit l := by
  rw [State.visit, h.lane]; rfl

theorem ArmTo.setExc {b : Barrier} (h : ArmTo l s b t) (x : ExcTable) : ArmTo l s b { t with exc := x } :=
  h.trans ⟨h.lane ▸ h.barrier ▸ rfl, (Beside.refl l t).setExc x, rfl, rfl⟩

/-- A report of the condition cleared (R160) settles an entry, or does nothing. -/
theorem reportCleared_exc (s : State) (n : Nat) : (s.reportCleared n).exc = s.exc ∨
    (s.reportCleared n).exc = { s.exc with
      entries := s.exc.entries.map fun e => if e.number = n then e.resolved .cleared else e } := by
  unfold State.reportCleared
  split
  · split
    · exact .inr (by simp [State.modEntry])
    · exact .inl rfl
  · exact .inl rfl

theorem reportCleared_armTo (s : State) (n : Nat) (l : LaneNo) : ArmTo l s (s.barrier l) (s.reportCleared n) := by
  unfold State.reportCleared
  split
  · split
    · exact ⟨by simp [State.modEntry, State.barrier], .queueNotice (.setExc (.refl l s) _) _, by simp [State.modEntry],
        by simp [State.modEntry]⟩
    · exact .same l s
  · exact .same l s

/-- The barrier's state at an arrival (R61). -/
def Arrival.state : Arrival → BarrierState
  | .up => .up
  | .down => .down

/-- What an arrival may do to the Exception Table (R64): under the fault entry mark the lane's OPEN BARRIER_FAULT is cleared. -/
def ExcFound (l : LaneNo) (s t : State) : Prop :=
  t.exc = s.exc ∨ (s.barrier l).faultMark = true ∧ ∃ n, s.barrierEntry l = some n ∧ t.exc = { s.exc with
    entries := s.exc.entries.map fun e => if e.number = n then e.resolved .cleared else e }

theorem ExcFound.unmarked (h : ExcFound l s t) (hm : (s.barrier l).faultMark = false) : t.exc = s.exc := by
  rcases h with h | ⟨h, -⟩
  · exact h
  · rw [hm] at h; cases h

/-- The lane's OPEN BARRIER_FAULT, if there is one, is reported cleared. -/
def clearFault (s : State) (l : LaneNo) : State :=
  match s.barrierEntry l with
  | some n => s.reportCleared n
  | none => s

theorem clearFault_armTo (s : State) (l : LaneNo) : ArmTo l s (s.barrier l) (clearFault s l) := by
  unfold clearFault
  split
  · exact reportCleared_armTo s _ l
  · exact .same l s

theorem clearFault_exc (s : State) (l : LaneNo) : (clearFault s l).exc = s.exc ∨ ∃ n, s.barrierEntry l = some n ∧
    (clearFault s l).exc = { s.exc with
      entries := s.exc.entries.map fun e => if e.number = n then e.resolved .cleared else e } := by
  unfold clearFault
  split
  · next n hn => exact (reportCleared_exc s n).imp_right fun h => ⟨n, hn, h⟩
  · exact .inl rfl

/-- The barrier has arrived, its timer stopped. -/
def Barrier.stopped (b : Barrier) (a : Arrival) : Barrier := { b with state := Arrival.state a, pending := none, left := none }

theorem arriveAt_eq (s : State) (l : LaneNo) (a : Arrival) : (s.arriveAt l a).1 =
    if (s.barrier l).faultMark then
      (clearFault (s.modBarrier l fun b => Barrier.stopped b a) l).modBarrier l fun b => { b with faultMark := false }
    else s.modBarrier l fun b => Barrier.stopped b a := by
  cases a <;> rfl

theorem arriveAt_armTo (s : State) (l : LaneNo) (a : Arrival) :
    ArmTo l s ⟨Arrival.state a, none, false, (s.barrier l).exitHold, none⟩ (s.arriveAt l a).1 := by
  have h1 := ArmTo.modBarrier s l fun b => Barrier.stopped b a
  rw [arriveAt_eq]
  split
  · have h2 := (h1.trans (clearFault_armTo _ l)).trans (.modBarrier _ l fun b => { b with faultMark := false })
    rw [(clearFault_armTo _ l).barrier, h1.barrier] at h2
    exact h2
  · next hm =>
    rw [← Bool.eq_false_iff.mpr hm]
    exact h1

theorem arriveAt_exc (s : State) (l : LaneNo) (a : Arrival) : ExcFound l s (s.arriveAt l a).1 := by
  rw [arriveAt_eq]
  split
  · next hm => exact (clearFault_exc (s.modBarrier l fun b => Barrier.stopped b a) l).imp_right fun h => ⟨hm, h⟩
  · exact .inl rfl

theorem modBarrier_barrier (s : State) (l : LaneNo) (f : Barrier → Barrier) :
    (s.modBarrier l f).barrier l = f (s.barrier l) := (ArmTo.modBarrier s l f).barrier

/-- What LOWERING comes to at once, with BARRIER DOWN SENSE active or not (R60, R61). -/
def lowering (b : Barrier) (down : Bool) (time : Nat) : Barrier :=
  if down then ⟨.down, none, false, false, none⟩
  else { b with state := .lowering, pending := none, exitHold := false, left := some time }

/-- What RAISING comes to at once, with BARRIER UP SENSE active or not (R59, R61). -/
def raising (b : Barrier) (up : Bool) (time : Nat) : Barrier :=
  if up then ⟨.up, none, false, b.exitHold, none⟩ else { b with state := .raising, pending := none, left := some time }

theorem enterLowering_armTo (s : State) (l : LaneNo) :
    ArmTo l s (lowering (s.barrier l) (s.input l .downSense) s.store.work.lowerTime) (s.enterLowering l).1 := by
  have h1 := ArmTo.modBarrier s l fun b =>
    { b with state := .lowering, pending := none, exitHold := false, left := some s.store.work.lowerTime }
  simp only [State.enterLowering, lowering]
  split
  · have h2 := h1.trans (arriveAt_armTo _ l .down)
    rw [h1.barrier] at h2
    exact h2
  · exact h1

theorem enterLowering_exc (s : State) (l : LaneNo) : ExcFound l s (s.enterLowering l).1 := by
  simp only [State.enterLowering]
  split
  · rcases arriveAt_exc (s.modBarrier l fun b =>
      { b with state := .lowering, pending := none, exitHold := false, left := some s.store.work.lowerTime }) l .down with
      h | ⟨hm, h⟩
    · exact .inl h
    · rw [modBarrier_barrier] at hm
      exact .inr ⟨hm, h⟩
  · exact .inl rfl

theorem enterRaising_armTo (s : State) (l : LaneNo) :
    ArmTo l s (raising (s.barrier l) (s.input l .upSense) s.store.work.raiseTime) (s.enterRaising l).1 := by
  have h1 := ArmTo.modBarrier s l fun b =>
    { b with state := .raising, pending := none, left := some s.store.work.raiseTime }
  simp only [State.enterRaising, raising]
  split
  · have h2 := h1.trans (arriveAt_armTo _ l .up)
    rw [h1.barrier] at h2
    exact h2
  · exact h1

theorem enterRaising_exc (s : State) (l : LaneNo) : ExcFound l s (s.enterRaising l).1 := by
  simp only [State.enterRaising]
  split
  · rcases arriveAt_exc (s.modBarrier l fun b =>
      { b with state := .raising, pending := none, left := some s.store.work.raiseTime }) l .up with h | ⟨hm, h⟩
    · exact .inl h
    · rw [modBarrier_barrier] at hm
      exact .inr ⟨hm, h⟩
  · exact .inl rfl

theorem ArmTo.cast {b c : Barrier} (h : ArmTo l s b t) (e : b = c) : ArmTo l s c t := e ▸ h

/-- The lower command makes of the barrier what its table says (R60). -/
theorem lowerArm_armTo (s : State) (l : LaneNo) : ArmTo l s
    ((s.barrier l).lowered (s.input l .exit) (s.input l .downSense) s.store.work.lowerTime) (s.lowerArm l).1 := by
  have hl := enterLowering_armTo s l
  simp only [State.lowerArm, Barrier.lowered]
  cases hb : (s.barrier l).state
  case up | raising =>
    dsimp only
    split
    · exact (ArmTo.modBarrier s l fun b => { b with exitHold := true }).cast (by rw [hb])
    · exact hl.cast (by simp [lowering])
  case down | lowering => exact .same l s
  case fault =>
    dsimp only
    split
    · exact (ArmTo.modBarrier s l fun b => { b with pending := some .lower }).cast (by rw [hb])
    · exact hl.cast (by simp [lowering])

theorem lowerArm_exc (s : State) (l : LaneNo) : ExcFound l s (s.lowerArm l).1 := by
  have hl := enterLowering_exc s l
  simp only [State.lowerArm]
  cases (s.barrier l).state
  case up | raising =>
    dsimp only
    split
    · exact .inl rfl
    · exact hl
  case down | lowering => exact .inl rfl
  case fault =>
    dsimp only
    split
    · exact .inl rfl
    · exact hl

/-- A barrier without its fault entry mark finds its position as its table says (R65). -/
theorem findArm_armTo (hm : (s.barrier l).faultMark = false) : ArmTo l s
    ((s.barrier l).found (s.input l .upSense) (s.input l .downSense) (s.verdictFormed l) s.store.work.raiseTime
      s.store.work.lowerTime) (s.findArm l).1 := by
  have hr := enterRaising_armTo s l
  have hl := enterLowering_armTo s l
  simp only [State.findArm, State.attemptMotion]
  split
  · next hf => exact (ArmTo.same l s).cast (by rw [Barrier.found, if_pos hf, ← hm])
  · next hf =>
    split
    · next h1 => exact (arriveAt_armTo s l .up).cast (by rw [Barrier.found, if_neg hf, if_pos h1]; rfl)
    · next h1 =>
      split
      · next h2 => exact (arriveAt_armTo s l .down).cast (by rw [Barrier.found, if_neg hf, if_neg h1, if_pos h2]; rfl)
      · next h2 =>
        split
        · next h3 =>
          refine hr.cast ?_
          rw [Barrier.found, if_neg hf, if_neg h1, if_neg h2, if_pos h3, raising, hm]
        · next h3 =>
          refine hl.cast ?_
          rw [Barrier.found, if_neg hf, if_neg h1, if_neg h2, if_neg h3, lowering, hm]

/-- A barrier whose entry is settled finds its position as its table says (R65). -/
theorem barrierFreed_armTo (s : State) (l : LaneNo) : ArmTo l s
    ((s.barrier l).found (s.input l .upSense) (s.input l .downSense) (s.verdictFormed l) s.store.work.raiseTime
      s.store.work.lowerTime) (s.barrierFreed l).1 := by
  have h1 := ArmTo.modBarrier s l fun b => { b with faultMark := false }
  have hm := congrArg Barrier.faultMark h1.barrier
  refine (h1.trans (findArm_armTo hm)).cast ?_
  rw [h1.barrier, h1.input, h1.input, h1.beside.store, State.verdictFormed, h1.visit]
  rfl

theorem barrierFreed_exc (s : State) (l : LaneNo) : (s.barrierFreed l).1.exc = s.exc := by
  have hm : ((s.modBarrier l fun b => { b with faultMark := false }).barrier l).faultMark = false := by
    rw [modBarrier_barrier]
  have hr := (enterRaising_exc _ l).unmarked hm
  have hl := (enterLowering_exc _ l).unmarked hm
  have ha := fun a => (arriveAt_exc _ l a).unmarked hm
  unfold State.barrierFreed State.findArm State.attemptMotion
  dsimp only
  split
  · rfl
  · split
    · exact ha _
    · split
      · exact ha _
      · split
        · exact hr
        · exact hl

/-! ### Discards (R161) -/

/-- The entries with those of a kind of sort discarded. -/
def discarded (p : Entry → Bool) (es : List Entry) : List Entry := es.map fun e => if p e then e.resolved .discarded else e

theorem discard_exc (s : State) (l : LaneNo) (p : Entry → Bool) :
    (s.discard l p).exc = { s.exc with entries := discarded p s.exc.entries } := by
  simp only [State.discard]
  split
  · exact barrierFreed_exc _ l
  · rfl

/-- A discard lets the barrier find its position if an OPEN BARRIER_FAULT was among the entries (R65). -/
theorem discard_armTo (s : State) (l : LaneNo) (p : Entry → Bool) : ArmTo l s
    (if s.exc.entries.any fun e => p e && e.state == .opened && e.kind == .barrierFault then
      (s.barrier l).found (s.input l .upSense) (s.input l .downSense) (s.verdictFormed l) s.store.work.raiseTime
        s.store.work.lowerTime
    else s.barrier l) (s.discard l p) := by
  simp only [State.discard]
  split
  · have h := barrierFreed_armTo { s with exc := { s.exc with entries := discarded p s.exc.entries } } l
    exact ((ArmTo.same l s).setExc _).trans h
  · exact (ArmTo.same l s).setExc _

/-! ### CLOSED (R48, R161, R179) -/

theorem lanesClosed_link (s : State) : s.lanesClosed = { s with
    gate := if s.gate = .draining ∧ allLanes.all (fun l => (s.lane l).state == .closed) then .shut else s.gate
    link := s.lanesClosed.link } := by
  unfold State.lanesClosed
  split
  · exact queueNotice_link _ _
  · rfl

section LanesClosed
variable (s : State)
@[simp] theorem lanesClosed_lane (m : LaneNo) : s.lanesClosed.lane m = s.lane m := by rw [lanesClosed_link]; rfl
@[simp] theorem lanesClosed_exc : s.lanesClosed.exc = s.exc := by rw [lanesClosed_link]
theorem lanesClosed_beside (l : LaneNo) : Beside l s s.lanesClosed := by
  rw [lanesClosed_link]; exact ⟨rfl, rfl, rfl, rfl, fun _ _ => rfl⟩
theorem lanesClosed_gate : s.lanesClosed.gate =
    if s.gate = .draining ∧ allLanes.all (fun l => (s.lane l).state == .closed) then .shut else s.gate := by
  rw [lanesClosed_link]
end LanesClosed

/-- The entries that a lane's entry to CLOSED discards (R161). -/
def openAt (l : LaneNo) (e : Entry) : Bool := e.lane == some l && e.state == .opened

/-- The barrier after a lane's entry to CLOSED (R65). -/
def closedBarrier (s : State) (l : LaneNo) : Barrier :=
  if s.exc.entries.any fun e => openAt l e && e.state == .opened && e.kind == .barrierFault then
    (s.barrier l).found (s.input l .upSense) (s.input l .downSense) (s.verdictFormed l) s.store.work.raiseTime
      s.store.work.lowerTime
  else s.barrier l

/-- The lane's record after its entry to CLOSED. -/
def closedLane (s : State) (l : LaneNo) : Lane :=
  { s.lane l with
    state := .closed, closePending := false, stuck := ⟨⟨none, false⟩, ⟨none, false⟩, ⟨none, false⟩⟩
    barrier := closedBarrier s l }

/-- The part as the lane's entry to CLOSED discards its entries. -/
def closing (s : State) (l : LaneNo) : State :=
  (s.changeLane l .closed .laneClosed).modLane l fun x =>
    { x with closePending := false, stuck := ⟨⟨none, false⟩, ⟨none, false⟩, ⟨none, false⟩⟩ }

theorem enterClosed_eq (s : State) (l : LaneNo) :
    s.enterClosed l = ((closing s l).discard l (openAt l)).lanesClosed := rfl

theorem closing_lane (s : State) (l : LaneNo) : (closing s l).lane l = { s.lane l with
    state := .closed, closePending := false, stuck := ⟨⟨none, false⟩, ⟨none, false⟩, ⟨none, false⟩⟩ } := by
  simp [closing]

theorem closing_discard (s : State) (l : LaneNo) :
    ArmTo l (closing s l) (closedBarrier s l) ((closing s l).discard l (openAt l)) := by
  refine (discard_armTo _ l _).cast ?_
  have hx := closing_lane s l
  simp [closedBarrier, State.barrier, State.input, State.verdictFormed, State.visit, hx]
  simp [closing]

theorem enterClosed_lane (s : State) (l : LaneNo) : (s.enterClosed l).lane l = closedLane s l := by
  rw [enterClosed_eq, lanesClosed_lane, (closing_discard s l).lane, closing_lane]; rfl

theorem enterClosed_beside (s : State) (l : LaneNo) : Beside l s (s.enterClosed l) := by
  rw [enterClosed_eq]
  exact (((Beside.refl l s).changeLane _ _).modLane _).trans
    ((closing_discard s l).beside.trans (lanesClosed_beside _ l))

theorem enterClosed_exc (s : State) (l : LaneNo) :
    (s.enterClosed l).exc = { s.exc with entries := discarded (openAt l) s.exc.entries } := by
  rw [enterClosed_eq, lanesClosed_exc, discard_exc]
  simp [closing]

/-- A draining gate is SHUT with the last lane in service (R179). -/
theorem enterClosed_gate (s : State) (l : LaneNo) : (s.enterClosed l).gate =
    if s.gate = .draining ∧ allLanes.all (fun m => m == l || (s.lane m).state == .closed) then .shut else s.gate := by
  have hg : ((closing s l).discard l (openAt l)).gate = s.gate := by
    rw [(closing_discard s l).gate]; simp [closing]
  have hs : ∀ m, ((((closing s l).discard l (openAt l)).lane m).state == LaneState.closed) =
      (m == l || (s.lane m).state == .closed) := by
    intro m
    by_cases hm : m = l
    · subst hm
      simp [(closing_discard s m).lane, closing_lane]
    · rw [(closing_discard s l).beside.others m hm, closing, State.modLane_other _ _ _ hm, changeLane_other _ _ _ _ hm]
      simp [hm]
  rw [enterClosed_eq, lanesClosed_gate, hg]
  simp only [hs]

/-! ### IDLE and the opening of a visit (R26, R27) -/

/-- The visit that opens (R26, R27). -/
def freshVisit (s : State) (l : LaneNo) : Visit :=
  { Visit.opening s.nextVisit with idSettle := if s.input l .stop then some s.store.work.idSettle else none }

/-- The lane's record as a visit opens. -/
def openedLane (s : State) (l : LaneNo) : Lane :=
  { s.lane l with
    state := .arriving, visit := some (freshVisit s l)
    counters := { (s.lane l).counters with visits := satInc (s.lane l).counters.visits } }

theorem openVisit_lane (s : State) (l : LaneNo) : (s.openVisit l).lane l = openedLane s l := by
  rw [State.openVisit, changeLane_lane, State.modCounters, State.modLane_lane, lane_setNextVisit, State.modLane_lane]
  rfl

theorem openVisit_exc (s : State) (l : LaneNo) : (s.openVisit l).exc = s.exc := by
  simp [State.openVisit, State.modCounters]

theorem openVisit_beside (s : State) (l : LaneNo) : Beside l s (s.openVisit l) :=
  Beside.changeLane (Beside.modLane (Beside.setNextVisit (Beside.modLane (.refl l s) _) _) _) _ _

/-- A loop of the lane entry is occupied. -/
def entryTaken (s : State) (l : LaneNo) : Bool := s.input l .arrival || s.input l .stop

theorem entryClear_iff (s : State) (l : LaneNo) : s.entryClear l = !entryTaken s l := by
  simp [State.entryClear, entryTaken]

theorem enterIdle_beside (s : State) (l : LaneNo) (c : LaneCause) : Beside l s (s.enterIdle l c) := by
  refine (Beside.changeLane (.refl l s) .idle c).trans ?_
  unfold State.enterIdle State.takeUpIdle
  exact .ite (enterClosed_beside _ l) (.ite (.refl l _) (openVisit_beside _ l))

/-- A lane that enters IDLE with its close-pending flag set goes on to CLOSED (R48). -/
theorem enterIdle_closing {c : LaneCause} (h : (s.lane l).closePending = true) :
    s.enterIdle l c = (s.changeLane l .idle c).enterClosed l := by
  unfold State.enterIdle State.takeUpIdle
  rw [if_pos (by simpa using h)]

/-- The part as the lane enters IDLE has the visit's makings unchanged. -/
theorem freshVisit_changeLane (s : State) (l : LaneNo) (now : LaneState) (c : LaneCause) :
    freshVisit (s.changeLane l now c) l = freshVisit s l := by
  have hi : (s.changeLane l now c).input l .stop = s.input l .stop := by simp [State.input]
  rw [freshVisit, hi, changeLane_nextVisit, changeLane_store]
  rfl

theorem entryTaken_changeLane (s : State) (l : LaneNo) (now : LaneState) (c : LaneCause) :
    entryTaken (s.changeLane l now c) l = entryTaken s l := by
  simp [entryTaken, State.input]

/-- A lane that enters IDLE with a loop of its entry occupied opens a visit (R27). -/
theorem enterIdle_opening {c : LaneCause} (hc : (s.lane l).closePending = false) (hl : entryTaken s l = true) :
    (s.enterIdle l c).lane l = openedLane s l ∧ (s.enterIdle l c).exc = s.exc := by
  have he : s.enterIdle l c = (s.changeLane l .idle c).openVisit l := by
    unfold State.enterIdle State.takeUpIdle
    rw [if_neg (by simp [hc]), if_neg (by simp [entryClear_iff, entryTaken_changeLane, hl])]
  rw [he, openVisit_lane, openVisit_exc, openedLane, freshVisit_changeLane]
  exact ⟨by simp [openedLane], by simp⟩

/-- A lane that enters IDLE with its entry clear stays there. -/
theorem enterIdle_idle {c : LaneCause} (hc : (s.lane l).closePending = false) (hl : entryTaken s l = false) :
    s.enterIdle l c = s.changeLane l .idle c := by
  unfold State.enterIdle State.takeUpIdle
  rw [if_neg (by simp [hc]), if_pos (by simp [entryClear_iff, entryTaken_changeLane, hl])]

/-- What a lane keeps as it enters IDLE, whatever follows there. -/
structure IdleKeeps (x y : Lane) : Prop where
  lines : y.lines = x.lines
  sign : y.sign = x.sign
  lamp : y.lamp = x.lamp
  interrupted : y.interrupted = x.interrupted
  abandoned : y.counters.abandoned = x.counters.abandoned

theorem enterIdle_keeps (s : State) (l : LaneNo) (c : LaneCause) : IdleKeeps (s.lane l) ((s.enterIdle l c).lane l) := by
  cases hc : (s.lane l).closePending
  · cases hl : entryTaken s l
    · rw [enterIdle_idle hc hl, changeLane_lane]
      exact ⟨rfl, rfl, rfl, rfl, rfl⟩
    · rw [(enterIdle_opening hc hl).1]
      exact ⟨rfl, rfl, rfl, rfl, rfl⟩
  · rw [enterIdle_closing hc, enterClosed_lane, closedLane, changeLane_lane]
    exact ⟨rfl, rfl, rfl, rfl, rfl⟩

theorem enterIdle_exc (s : State) (l : LaneNo) (c : LaneCause) : (s.enterIdle l c).exc =
    if (s.lane l).closePending then { s.exc with entries := discarded (openAt l) s.exc.entries } else s.exc := by
  cases hc : (s.lane l).closePending
  · cases hl : entryTaken s l
    · rw [enterIdle_idle hc hl, changeLane_exc]; rfl
    · rw [(enterIdle_opening hc hl).2]; rfl
  · rw [enterIdle_closing hc, enterClosed_exc, changeLane_exc]; rfl

theorem enterIdle_barrier (s : State) (l : LaneNo) (c : LaneCause) : ((s.enterIdle l c).lane l).barrier =
    if (s.lane l).closePending then closedBarrier (s.changeLane l .idle c) l else s.barrier l := by
  cases hc : (s.lane l).closePending
  · cases hl : entryTaken s l
    · rw [enterIdle_idle hc hl, changeLane_lane]; rfl
    · rw [(enterIdle_opening hc hl).1]; rfl
  · rw [enterIdle_closing hc, enterClosed_lane]; rfl

/-- A lane that enters IDLE with its close-pending flag set is CLOSED. -/
theorem enterIdle_closed {c : LaneCause} (h : (s.lane l).closePending = true) :
    ((s.enterIdle l c).lane l).state = .closed ∧ ((s.enterIdle l c).lane l).visit = (s.lane l).visit := by
  rw [enterIdle_closing h, enterClosed_lane, closedLane, changeLane_lane]
  exact ⟨rfl, rfl⟩

end Sys2Proof.Machine.VisitLaws
end

section
/-! SUPPORT. O26, O27, O34: OPEN_LANE, CLOSE_LANE and the abandoned visit. -/

namespace Sys2Proof.Machine.VisitLaws

variable {s t u : State} {l : LaneNo}

/-! ### A request answered by its rule -/

/-- A request asked with a body that reads as `x` gets the answer of its rule. -/
theorem answers_of_rule {α : Type} {kind : Nat} {tag : Byte} {body : List Byte} {p : Reader α} {rule : State → α → Ans}
    {x : α} {i : Instr} (hi : exec i s = request s kind tag body p rule) (h : Asked s (BitVec.ofNat 8 kind) tag body u)
    (hx : readAll p body = some x) {a : Ans} (ha : rule u x = a) :
    Answers i s (BitVec.ofNat 8 kind) tag a.s a.status a.data := by
  subst ha
  exact hi.trans (request_answered h hx)

theorem withLane_none {n : Nat} (h : laneOf n = none) (rule : LaneNo → Ans) : withLane s n rule = refuse s .range := by
  rw [withLane, h]

theorem withLane_some {n : Nat} (h : laneOf n = some l) (rule : LaneNo → Ans) : withLane s n rule = rule l := by
  rw [withLane, h]

/-! ### CLOSE_LANE (R48) -/

theorem closeLane_closed (h : (s.lane l).state = .closed) : s.closeLane l = s := by
  rw [State.closeLane, h]

theorem closeLane_idle (h : (s.lane l).state = .idle) : s.closeLane l = s.enterClosed l := by
  rw [State.closeLane, h]

theorem closeLane_busy (h : (s.lane l).state ≠ .closed) (k : (s.lane l).state ≠ .idle) :
    s.closeLane l = s.setLane l { s.lane l with closePending := true } := by
  unfold State.closeLane
  split
  · exact absurd ‹_› k
  · exact absurd ‹_› h
  · rfl

/-- The entries that a lane's entry to CLOSED discards, field by field. -/
theorem discarded_openAt (l : LaneNo) (es : List Entry) : discarded (openAt l) es = es.map fun e =>
    if e.lane = some l ∧ e.state = .opened then { e with state := .resolved, outcome := some .discarded, left := none }
    else e := by
  simp [discarded, openAt, Entry.resolved]

/-- An OPEN BARRIER_FAULT of the lane is among the entries. -/
theorem any_openAt (l : LaneNo) (es : List Entry) : (es.any fun e => openAt l e && e.state == .opened && e.kind == .barrierFault)
    = es.any fun e => e.lane == some l && e.state == .opened && e.kind == .barrierFault := by
  simp only [openAt, Bool.and_assoc, Bool.and_self_left]

/-! ### ABANDON_EXPIRY (R39) -/

/-- The books after the release of a booking that may be claimed (R24). -/
def releasedBook (s : State) (claimed : Option Nat) (o : ReleaseOutcome) : BookUnit :=
  match claimed with
  | some n => s.book.release s.clock.minute n o
  | none => s.book

theorem release_eq (s : State) (l : LaneNo) (o : ReleaseOutcome) :
    s.release l o = { s with book := releasedBook s ((s.visit l).bind Visit.claimed) o } := by
  unfold State.release releasedBook
  cases (s.visit l).bind Visit.claimed <;> rfl

/-- The OPEN entries of a visit. -/
def openOfVisit (l : LaneNo) (n : Nat) (e : Entry) : Bool := e.ofVisit l n && e.state == .opened

theorem discarded_openOfVisit (l : LaneNo) (n : Nat) (es : List Entry) : discarded (openOfVisit l n) es = es.map fun e =>
    if e.lane = some l ∧ e.visit = some n ∧ e.state = .opened then
      { e with state := .resolved, outcome := some .discarded, left := none } else e := by
  simp [discarded, openOfVisit, Entry.ofVisit, Entry.resolved, and_assoc]

/-- The part as the lane of an abandoned visit leaves for IDLE. -/
def abandoning (s : State) (l : LaneNo) (v : Visit) : State :=
  (((s.release l .turned).discard l (openOfVisit l v.number)).dropVisit l).modCounters l fun c =>
    { c with abandoned := satInc c.abandoned }

theorem abandonVisit_eq {v : Visit} (hv : s.visit l = some v) :
    s.abandonVisit l = (abandoning s l v).enterIdle l .abandoned := by
  unfold State.abandonVisit
  rw [hv]
  rfl

/-- What stands as the lane of an abandoned visit leaves for IDLE: the lane without its visit, its barrier and counter apart. -/
theorem abandoning_lane (s : State) (l : LaneNo) (v : Visit) : ∃ b, (abandoning s l v).lane l = { s.lane l with
    visit := none, barrier := b
    counters := { (s.lane l).counters with abandoned := satInc (s.lane l).counters.abandoned } } := by
  have h := discard_armTo (s.release l .turned) l (openOfVisit l v.number)
  rw [abandoning, State.modCounters, State.modLane_lane, State.dropVisit, State.modLane_lane, h.lane, release_eq, lane_setBook]
  exact ⟨_, rfl⟩

theorem abandoning_exc (s : State) (l : LaneNo) (v : Visit) : (abandoning s l v).exc =
    { s.exc with entries := discarded (openOfVisit l v.number) s.exc.entries } :=
  (discard_exc _ l _).trans (by rw [release_eq])

theorem abandoning_beside (s : State) (l : LaneNo) (v : Visit) : Beside l (s.release l .turned) (abandoning s l v) := by
  unfold abandoning
  exact Beside.modLane (Beside.modLane (discard_armTo _ l _).beside _) _

theorem abandoning_nextVisit (s : State) (l : LaneNo) (v : Visit) : (abandoning s l v).nextVisit = s.nextVisit :=
  (discard_armTo (s.release l .turned) l _).nextVisit.trans (by rw [release_eq])

/-! ### OPEN_LANE (R47) -/

/-- A lane that has the lines of another has its inputs. -/
theorem input_of_lines (h : (t.lane l).lines = (s.lane l).lines) (i : Input) : t.input l i = s.input l i := by
  rw [State.input, State.input, h]

/-- The stuck watch of a loop as its lane leaves CLOSED (R57). -/
def watched (s : State) (l : LaneNo) (i : Loop) (w : StuckWatch) : StuckWatch :=
  if s.input l (inputOf i) then { w with left := some s.store.work.loopStuck } else w

/-- The part with a lane's stuck watches replaced. -/
def withStuck (s : State) (l : LaneNo) (p : PerLoop StuckWatch) : State := s.setLane l { s.lane l with stuck := p }

/-- One loop's watch is looked to. -/
theorem startWatch_eq (h : (s.lane l).state ≠ .closed) (p : PerLoop StuckWatch) (i : Loop) :
    (if (withStuck s l p).input l (inputOf i) then (withStuck s l p).watchLoop l i true else withStuck s l p) =
      withStuck s l (p.set i (watched s l i (p.get i))) := by
  have hl : (withStuck s l p).lane l = { s.lane l with stuck := p } := State.setLane_lane ..
  rw [input_of_lines (s := s) (by rw [hl]), watched]
  split
  · rw [State.watchLoop, if_pos rfl, if_neg (by rw [hl]; exact h), modLane_eq, hl]
    exact setLane_setLane ..
  · have hs : p.set i (p.get i) = p := by cases i <;> rfl
    rw [hs]

/-- The three watches of a lane that has left CLOSED. -/
theorem startWatches_eq (h : (s.lane l).state ≠ .closed) : s.startWatches l = withStuck s l
    ⟨watched s l .arrival (s.lane l).stuck.arrival, watched s l .stop (s.lane l).stuck.stop,
      watched s l .exit (s.lane l).stuck.exit⟩ := by
  have h0 : s = withStuck s l (s.lane l).stuck := (setLane_self s l).symm
  conv_lhs => rw [h0]
  simp only [State.startWatches, allLoops, List.foldl_cons, List.foldl_nil, startWatch_eq h]
  rfl

/-- The part as a CLOSED lane put into service looks to its barrier: in IDLE, its watches running. -/
def serving (s : State) (l : LaneNo) : State :=
  ((s.changeLane l .idle .laneOpened).modLane l fun x => { x with lamp := .red, closePending := false }).startWatches l

/-- The lane's record then. -/
def servingLane (s : State) (l : LaneNo) : Lane :=
  { s.lane l with
    state := .idle, lamp := .red, closePending := false
    stuck := ⟨watched s l .arrival (s.lane l).stuck.arrival, watched s l .stop (s.lane l).stuck.stop,
      watched s l .exit (s.lane l).stuck.exit⟩ }

theorem serving_eq (s : State) (l : LaneNo) :
    serving s l = (s.changeLane l .idle .laneOpened).setLane l (servingLane s l) := by
  have hw : ∀ i, watched ((s.changeLane l .idle .laneOpened).modLane l fun x =>
      { x with lamp := .red, closePending := false }) l i = watched s l i := by
    intro i
    funext w
    rw [watched, input_of_lines (s := s) (by simp)]
    simp [watched]
  rw [serving, startWatches_eq (by simp)]
  simp only [hw]
  rw [withStuck, State.modLane_lane, changeLane_lane, modLane_eq, setLane_setLane]
  rfl

/-- A lane in IDLE acts on no arrival of its barrier. -/
theorem arrived_idle {r : State × Option Arrival} (h : (r.1.lane l).state = .idle) : State.arrived r l = r.1 := by
  obtain ⟨t, _ | _ | _⟩ := r
  · rfl
  · rw [State.arrived, State.onUp, h]
  · rw [State.arrived, State.onDown, if_neg (by rw [h]; decide)]

/-- A barrier that is DOWN, or is given the lower command, on a lane in IDLE (R60). -/
theorem lowered_armTo (h : (s.lane l).state = .idle) : ArmTo l s
    ((s.barrier l).lowered (s.input l .exit) (s.input l .downSense) s.store.work.lowerTime)
    (if (s.barrier l).state = .down then s else State.arrived (s.lowerArm l) l) := by
  have ha := lowerArm_armTo s l
  split
  · next hd => exact (ArmTo.same l s).cast (by rw [Barrier.lowered, hd])
  · rw [arrived_idle (by rw [ha.lane]; exact h)]
    exact ha

/-- The lower command given in IDLE leaves the Exception Table as it is without the fault entry mark. -/
theorem lowered_exc (h : (s.lane l).state = .idle) (hm : (s.barrier l).faultMark = false) :
    (if (s.barrier l).state = .down then s else State.arrived (s.lowerArm l) l).exc = s.exc := by
  split
  · rfl
  · rw [arrived_idle (by rw [(lowerArm_armTo s l).lane]; exact h)]
    exact (lowerArm_exc s l).unmarked hm

/-- The part as a lane put into service has looked to its barrier (R60). -/
def served (s : State) (l : LaneNo) : State :=
  if ((serving s l).barrier l).state = .down then serving s l else State.arrived ((serving s l).lowerArm l) l

theorem serving_lane (s : State) (l : LaneNo) : (serving s l).lane l = servingLane s l := by
  rw [serving_eq, State.setLane_lane]

theorem served_armTo (s : State) (l : LaneNo) : ArmTo l (serving s l)
    ((s.barrier l).lowered (s.input l .exit) (s.input l .downSense) s.store.work.lowerTime) (served s l) := by
  have hi : ∀ i, (serving s l).input l i = s.input l i := input_of_lines (by rw [serving_lane]; rfl)
  refine (lowered_armTo (by rw [serving_lane]; rfl)).cast ?_
  rw [hi, hi, State.barrier, serving_lane, serving_eq, State.setLane_store, changeLane_store]
  rfl

/-- A lane in IDLE that takes up its state has entered it. -/
theorem openLane_eq (s : State) (l : LaneNo) : s.openLane l = (served s l).enterIdle l .laneOpened := by
  have hs : ((served s l).lane l).state = .idle := by rw [(served_armTo s l).lane, serving_lane]; rfl
  rw [State.enterIdle, State.changeLane, if_pos hs]
  rfl

theorem served_lane (s : State) (l : LaneNo) : (served s l).lane l = { servingLane s l with
    barrier := (s.barrier l).lowered (s.input l .exit) (s.input l .downSense) s.store.work.lowerTime } := by
  rw [(served_armTo s l).lane, serving_lane]

theorem served_beside (s : State) (l : LaneNo) : Beside l s (served s l) := by
  refine Beside.trans ?_ (served_armTo s l).beside
  rw [serving_eq]
  exact ((Beside.refl l s).changeLane .idle .laneOpened).modLane fun _ => servingLane s l

theorem served_nextVisit (s : State) (l : LaneNo) : (served s l).nextVisit = s.nextVisit := by
  rw [(served_armTo s l).nextVisit, serving_eq, State.setLane_nextVisit, changeLane_nextVisit]

theorem served_exc (hm : (s.barrier l).faultMark = false) : (served s l).exc = s.exc := by
  refine (lowered_exc (by rw [serving_lane]; rfl) ?_).trans (by rw [serving_eq, State.setLane_exc, changeLane_exc])
  rw [State.barrier, serving_lane]
  exact hm

/-- A CLOSED lane with the barrier DOWN put into service: its LANE_STATE notice and its record, and nothing else. -/
theorem served_down (hx : (s.lane l).state = .closed) (hv : (s.lane l).visit = none) (hb : (s.barrier l).state = .down) :
    served s l = (s.queueNotice (laneStateNotice l .closed .idle 0 .laneOpened)).setLane l (servingLane s l) := by
  have hb' : ((serving s l).barrier l).state = .down := by rw [State.barrier, serving_lane]; exact hb
  rw [served, if_pos hb', serving_eq, State.changeLane, if_neg (by rw [hx]; decide), hx, Lane.visitNumber, hv, modLane_eq,
    queueNotice_setLane, setLane_setLane]
  rfl

/-- The number that names a lane is the lane's number. -/
theorem laneNumber_of_laneOf {n : Nat} (h : laneOf n = some l) : laneNumber l = n := by
  unfold laneOf at h
  split at h
  · cases h
  · obtain ⟨hlt, hg⟩ := List.getElem?_eq_some_iff.mp h
    have hn : n - 1 < 8 := hlt
    obtain ⟨k, rfl⟩ : ∃ k, n = k + 1 := ⟨n - 1, by omega⟩
    rw [← hg]
    simp only [Nat.add_sub_cancel] at hn ⊢
    interval_cases k <;> rfl

end Sys2Proof.Machine.VisitLaws

open Sys2Proof Sys2Proof.Machine Sys2Proof.Machine.VisitLaws in
/-- Settles O27, by the lane's state: what IDLE comes to is said by `enterClosed_lane`, `enterClosed_exc` and
`enterClosed_gate`. -/
theorem closeLaneCloses : Obligations.CloseLaneCloses := by
  intro s u tag body n hask hn
  have answers : ∀ {a}, ruleCloseLane u n = a → Answers (.closeLane tag body) s 0x0A tag a.s a.status a.data :=
    fun {_} ha => answers_of_rule rfl hask hn ha
  refine ⟨fun hl => answers (withLane_none hl _), fun l hl => ?_⟩
  have closes : ∀ {t}, u.closeLane l = t → Answers (.closeLane tag body) s 0x0A tag t .ok [] :=
    fun {_} ht => answers (a := okay _) ((withLane_some hl _).trans (congrArg okay ht))
  refine ⟨fun h => closes (closeLane_closed h), fun h k => closes (closeLane_busy h k), fun h => ?_⟩
  have hlane := enterClosed_lane u l
  refine ⟨u.enterClosed l, closes (closeLane_idle h), by rw [hlane]; rfl, by rw [hlane]; rfl, by rw [hlane]; rfl, ?_,
    by rw [hlane]; rfl, by rw [hlane]; rfl, by rw [hlane]; rfl, (enterClosed_beside u l).book, ?_, enterClosed_gate u l⟩
  · rw [hlane, closedLane, closedBarrier, any_openAt]; rfl
  · rw [enterClosed_exc, discarded_openAt]

open Sys2Proof Sys2Proof.Machine Sys2Proof.Machine.VisitLaws in
/-- Settles O34: the visit's work ends in `abandoning`, and the lane enters IDLE from there. -/
theorem visitsAreAbandoned : Obligations.VisitsAreAbandoned := by
  intro s l v hp hv
  have event_eq : exec (.abandonExpiry l) s = .next (if v.abandon.isSome then s.abandonVisit l else s) := by
    show event s _ = _
    rw [event, if_pos hp, State.running, hv]
    rfl
  refine ⟨fun h => by rw [event_eq, h]; rfl, fun h => ⟨s.abandonVisit l, by rw [event_eq, if_pos h], ?_⟩⟩
  rw [abandonVisit_eq hv]
  obtain ⟨b, hlane⟩ := abandoning_lane s l v
  have hexc := abandoning_exc s l v
  have hbeside := (abandoning_beside s l v).trans (enterIdle_beside _ l .abandoned)
  have htaken : entryTaken (abandoning s l v) l = (s.input l .arrival || s.input l .stop) := by
    simp [entryTaken, State.input, hlane]
  have hfresh : freshVisit (abandoning s l v) l = freshVisit s l := by
    rw [freshVisit, abandoning_nextVisit, (abandoning_beside s l v).store, release_eq,
      input_of_lines (s := s) (by rw [hlane])]
    rfl
  have hkeeps := enterIdle_keeps (abandoning s l v) l .abandoned
  rw [hlane] at hkeeps
  refine ⟨hbeside.book.trans ?_, hkeeps.abandoned, hkeeps.lines, hkeeps.sign, hbeside.pool.trans ?_, fun hc => ?_,
    fun hc => ?_⟩
  · rw [release_eq, hv]; rfl
  · rw [release_eq]
  · have h := enterIdle_closed (s := abandoning s l v) (l := l) (c := .abandoned) (by rw [hlane]; exact hc)
    exact ⟨h.1, h.2.trans (by rw [hlane])⟩
  · have hc' : ((abandoning s l v).lane l).closePending = false := by rw [hlane]; exact hc
    rw [← discarded_openOfVisit, ← htaken]
    cases ht : entryTaken (abandoning s l v) l
    · rw [enterIdle_idle hc' ht, changeLane_exc, changeLane_lane, hexc, hlane]
      exact ⟨rfl, rfl, rfl⟩
    · rw [(enterIdle_opening hc' ht).1, (enterIdle_opening hc' ht).2, hexc, openedLane, hfresh]
      exact ⟨rfl, rfl, rfl⟩

open Sys2Proof Sys2Proof.Machine Sys2Proof.Machine.VisitLaws in
/-- Settles O26: the lane in service (`serving_eq`), its barrier (`lowered_armTo`), and what IDLE finds. -/
theorem openLaneOpens : Obligations.OpenLaneOpens := by
  intro s u tag body n hask hn
  have answers : ∀ {a}, ruleOpenLane u n = a → Answers (.openLane tag body) s 0x09 tag a.s a.status a.data :=
    fun {_} ha => answers_of_rule rfl hask hn ha
  refine ⟨fun hl => answers (withLane_none hl _), fun l hl => ?_⟩
  have rule := withLane_some (s := u) hl
  refine ⟨fun h => answers ((rule _).trans (if_pos h)),
    fun h hx => answers ((rule _).trans ((if_neg h).trans (if_neg hx))), fun h hx hv => ?_⟩
  refine ⟨u.openLane l, answers ((rule _).trans ((if_neg h).trans (if_pos hx))), ?_⟩
  rw [openLane_eq]
  have hlane := served_lane u l
  have hc : ((served u l).lane l).closePending = false := by rw [hlane]; rfl
  have htaken : entryTaken (served u l) l = (u.input l .arrival || u.input l .stop) := by
    simp [entryTaken, State.input, hlane, servingLane]
  have hfresh : freshVisit (served u l) l = freshVisit u l := by
    rw [freshVisit, served_nextVisit, (served_beside u l).store, input_of_lines (s := u) (by rw [hlane]; rfl)]
    rfl
  have hbeside := (served_beside u l).trans (enterIdle_beside _ l .laneOpened)
  have hkeeps := enterIdle_keeps (served u l) l .laneOpened
  rw [hlane] at hkeeps
  rw [← htaken]
  cases ht : entryTaken (served u l) l
  · rw [enterIdle_idle hc ht, changeLane_lane, changeLane_exc, changeLane_nextVisit, served_nextVisit, changeLane_book,
      changeLane_pool, (served_beside u l).book, (served_beside u l).pool, hlane]
    refine ⟨rfl, rfl, rfl, rfl, rfl, rfl, rfl, ⟨rfl, hv, rfl, rfl⟩, rfl, served_exc, fun hd _ _ => ?_⟩
    rw [State.changeLane, if_pos (by rw [hlane]; rfl), served_down hx hv hd, ← laneNumber_of_laneOf hl]
    rfl
  · obtain ⟨ho, he⟩ := enterIdle_opening (c := .laneOpened) hc ht
    rw [ho, he, openedLane, hfresh, hlane, hbeside.book, hbeside.pool]
    refine ⟨rfl, rfl, rfl, rfl, rfl, rfl, rfl, ⟨rfl, rfl, rfl⟩, rfl, served_exc, fun _ h1 h2 => ?_⟩
    rw [htaken, h1, h2] at ht
    cases ht
end

section
/-! SUPPORT. O28: RESET_LANE, stage by stage: the booking and the bay given back, the sign cleared, the lower command, the discards, and
the lane's entry to IDLE. -/

namespace Sys2Proof.Machine.VisitLaws

variable {s t u : State} {l : LaneNo}

/-! ### The Bay Pool served (R147) -/

theorem firstFree_of_full {bs : List (Option BayHold)} (h : ∀ b ∈ bs, b ≠ none) : firstFree bs = none := by
  unfold firstFree
  rw [List.findIdx?_eq_none_iff]
  intro b hb
  simpa [Option.isSome_iff_ne_none] using h b hb

theorem firstFree_at {pre post : List (Option BayHold)} (h : ∀ b ∈ pre, b ≠ none) :
    firstFree (pre ++ none :: post) = some pre.length := by
  have hp : firstFree pre = none := firstFree_of_full h
  unfold firstFree at *
  simp [List.findIdx?_append, hp, List.findIdx?_cons]

theorem servePool_full (minute : Nat) (ws : List BayHold) {bs : List (Option BayHold)} (h : ∀ b ∈ bs, b ≠ none) :
    servePool minute ws bs = (bs, ws, []) := by
  cases ws with
  | nil => rfl
  | cons w ws => rw [servePool, firstFree_of_full h]

theorem servePool_first (minute : Nat) (k : BayHold) (rest : List BayHold) {pre post : List (Option BayHold)}
    (h : ∀ b ∈ pre ++ post, b ≠ none) : servePool minute (k :: rest) (pre ++ none :: post) =
      (pre ++ some { k with minute := minute } :: post, rest, [(pre.length + 1, { k with minute := minute })]) := by
  have hfull : ∀ b ∈ pre ++ some { k with minute := minute } :: post, b ≠ none := by
    intro b hb
    rcases List.mem_append.mp hb with hb | hb
    · exact h b (List.mem_append_left _ hb)
    · rcases List.mem_cons.mp hb with rfl | hb
      · simp
      · exact h b (List.mem_append_right _ hb)
  rw [servePool, firstFree_at fun b hb => h b (List.mem_append_left _ hb)]
  simp only [List.set_append_right _ _ (Nat.le_refl _), Nat.sub_self, List.set_cons_zero, servePool_full _ _ hfull]

/-- What being told of bays leaves alone: all but the transmit side and the bay marks of the visits. -/
structure Told (s t : State) : Prop where
  book : t.book = s.book
  clock : t.clock = s.clock
  store : t.store = s.store
  nextVisit : t.nextVisit = s.nextVisit
  exc : t.exc = s.exc
  pool : t.pool = s.pool
  lanes : ∀ m, ∃ vis : Option Visit, t.lane m = { s.lane m with visit := vis } ∧
    vis.map (fun v => (v.number, v.verdict)) = (s.lane m).visit.map fun v => (v.number, v.verdict)

theorem Told.refl (s : State) : Told s s := ⟨rfl, rfl, rfl, rfl, rfl, rfl, fun _ => ⟨_, rfl, rfl⟩⟩

theorem Told.trans (h : Told s t) (k : Told t u) : Told s u where
  book := k.book.trans h.book
  clock := k.clock.trans h.clock
  store := k.store.trans h.store
  nextVisit := k.nextVisit.trans h.nextVisit
  exc := k.exc.trans h.exc
  pool := k.pool.trans h.pool
  lanes m := by
    obtain ⟨a, ha, ea⟩ := h.lanes m
    obtain ⟨b, hb, eb⟩ := k.lanes m
    exact ⟨b, by rw [hb, ha], eb.trans (by rw [ha]; exact ea)⟩

theorem told_queueNotice (s : State) (n : Notice) : Told s (s.queueNotice n) :=
  ⟨by simp, by simp, by simp, by simp, by simp, by simp, fun m => ⟨(s.lane m).visit, by simp, rfl⟩⟩

theorem told_modVisit (s : State) (l : LaneNo) (f : Visit → Visit)
    (hf : ∀ v, ((f v).number, (f v).verdict) = (v.number, v.verdict)) : Told s (s.modVisit l f) := by
  refine ⟨rfl, rfl, rfl, rfl, rfl, rfl, fun m => ?_⟩
  by_cases hm : m = l
  · subst hm
    refine ⟨(s.lane m).visit.map f, by rw [State.modVisit_lane]; rfl, ?_⟩
    cases (s.lane m).visit with
    | none => rfl
    | some v => simpa using hf v
  · exact ⟨(s.lane m).visit, by rw [State.modVisit_other _ _ _ hm], rfl⟩

theorem told_tellBay (s : State) (bay : Nat) (h : BayHold) : Told s (s.tellBay bay h) := by
  simp only [State.tellBay]
  split
  · exact (told_queueNotice s _).trans (told_modVisit _ _ _ fun _ => rfl)
  · exact told_queueNotice s _

theorem told_foldl (as : List (Nat × BayHold)) (s : State) : Told s (as.foldl (fun t a => t.tellBay a.1 a.2) s) := by
  induction as generalizing s with
  | nil => exact .refl s
  | cons a as ih => exact (told_tellBay s a.1 a.2).trans (ih _)

/-- Serving the list changes the pool as `servePool` says, and tells. -/
theorem serveBays_told (s : State) : Told { s with pool :=
    ⟨(servePool s.clock.minute s.pool.waiting s.pool.bays).1, (servePool s.clock.minute s.pool.waiting s.pool.bays).2.1⟩ }
    s.serveBays := told_foldl _ _

/-! ### The visit's hold given back (R150) -/

theorem ofVisit_iff (h : BayHold) (l : LaneNo) (v : Visit) :
    h.ofVisit l v = true ↔ h.visit = v.number ∧ h.lane = l ∧ v.hold = some h.join := by
  simp [BayHold.ofVisit, and_assoc]

/-- The pool as the lane's reset leaves it. -/
def returnedPool (s : State) (l : LaneNo) : BayPool :=
  match (s.visit l).bind (s.pool.without l) with
  | some p => ⟨(servePool s.clock.minute p.waiting p.bays).1, (servePool s.clock.minute p.waiting p.bays).2.1⟩
  | none => s.pool

theorem returnBay_told (s : State) (l : LaneNo) : Told { s with pool := returnedPool s l } (s.returnBay l) := by
  unfold State.returnBay returnedPool
  cases (s.visit l).bind (s.pool.without l) with
  | none => exact .refl s
  | some p => exact serveBays_told { s with pool := p }

theorem without_none {p : BayPool} {v : Visit} (h : ∀ k, some k ∈ p.bays ∨ k ∈ p.waiting → ¬ k.ofVisit l v = true) :
    p.without l v = none := by
  have hb : p.bays.findIdx? (fun b => b.any fun k => k.ofVisit l v) = none := by
    rw [List.findIdx?_eq_none_iff]
    intro b hb
    cases b with
    | none => rfl
    | some k => simpa using h k (.inl hb)
  have hw : ¬ (p.waiting.any fun k => k.ofVisit l v) = true := by
    rw [List.any_eq_true]
    rintro ⟨k, hk, hv⟩
    exact h k (.inr hk) hv
  rw [BayPool.without, hb]
  exact if_neg hw

theorem without_bay {p : BayPool} {v : Visit} {pre post : List (Option BayHold)} {h : BayHold}
    (hb : p.bays = pre ++ some h :: post) (hm : h.ofVisit l v = true) (hp : ∀ k, some k ∈ pre → ¬ k.ofVisit l v = true) :
    p.without l v = some ⟨pre ++ none :: post, p.waiting⟩ := by
  have hpre : pre.findIdx? (fun b => b.any fun k => k.ofVisit l v) = none := by
    rw [List.findIdx?_eq_none_iff]
    intro b hb
    cases b with
    | none => rfl
    | some k => simpa using hp k hb
  have hi : p.bays.findIdx? (fun b => b.any fun k => k.ofVisit l v) = some pre.length := by
    rw [hb, List.findIdx?_append, hpre]
    simp [List.findIdx?_cons, hm]
  rw [BayPool.without, hi, hb]
  simp

theorem without_waiting {p : BayPool} {v : Visit} {pre post : List BayHold} {h : BayHold}
    (hw : p.waiting = pre ++ h :: post) (hm : h.ofVisit l v = true) (hp : ∀ k ∈ pre, ¬ k.ofVisit l v = true)
    (hb : ∀ b ∈ p.bays, ∃ k, b = some k ∧ ¬ k.ofVisit l v = true) : p.without l v = some ⟨p.bays, pre ++ post⟩ := by
  have hi : p.bays.findIdx? (fun b => b.any fun k => k.ofVisit l v) = none := by
    rw [List.findIdx?_eq_none_iff]
    intro b hb'
    obtain ⟨k, rfl, hk⟩ := hb b hb'
    simpa using hk
  have ha : (p.waiting.any fun k => k.ofVisit l v) = true := by
    rw [hw, List.any_eq_true]
    exact ⟨h, by simp, hm⟩
  have he : (h :: post).eraseP (fun k => k.ofVisit l v) = post := List.eraseP_cons_of_pos hm
  rw [BayPool.without, hi]
  dsimp only
  rw [if_pos ha, hw, List.eraseP_append_right _ fun k hk => hp k hk, he]

theorem returnedPool_noVisit (h : s.visit l = none) : returnedPool s l = s.pool := by
  rw [returnedPool, h]
  rfl

theorem returnedPool_none {v : Visit} (h : s.visit l = some v) (hp : s.pool.without l v = none) :
    returnedPool s l = s.pool := by
  rw [returnedPool, h, Option.bind_some, hp]

theorem returnedPool_some {v : Visit} {p : BayPool} (h : s.visit l = some v) (hp : s.pool.without l v = some p) :
    returnedPool s l =
      ⟨(servePool s.clock.minute p.waiting p.bays).1, (servePool s.clock.minute p.waiting p.bays).2.1⟩ := by
  rw [returnedPool, h, Option.bind_some, hp]

/-! ### The stages of a reset -/

/-- The CLEAR frame is the whole frame of tag 0 and kind 3 (R185). -/
theorem clearFrame_eq : clearFrame = encodeFrame 0 3 [] := by decide +kernel

/-- A cleared sign (R141). -/
theorem sign_clear (x : Sign) : Sign.clear x = ⟨[], 0, none, false, x.rx, x.out ++ [encodeFrame 0 3 []]⟩ := by
  rw [← clearFrame_eq]; rfl

/-- The reset as far as the sign: the booking released, the hold given back, the sign cleared. -/
def resetSigned (s : State) (l : LaneNo) : State := ((s.release l .turned).returnBay l).modSign l Sign.clear

/-- The reset as far as the lower command. -/
def resetLowered (s : State) (l : LaneNo) : State := ((resetSigned s l).lowerArm l).1

/-- The entries a reset discards. -/
def resetWith (l : LaneNo) (n : Option Nat) (e : Entry) : Bool := e.resetWith l n

/-- The reset as far as the discards. -/
def resetDiscarded (s : State) (l : LaneNo) : State :=
  (resetLowered s l).discard l (resetWith l ((s.visit l).map Visit.number))

/-- The part as the lane of a reset enters IDLE. -/
def resetting (s : State) (l : LaneNo) : State :=
  State.modLane { resetDiscarded s l with exc :=
      { (resetDiscarded s l).exc with unrecorded := (resetDiscarded s l).exc.unrecorded.set l false } } l
    fun x => { x with visit := none, interrupted := none, noted := ⟨false, false, false⟩, lamp := .red }

theorem resetLane_eq (s : State) (l : LaneNo) : s.resetLane l = (resetting s l).enterIdle l .reset := rfl

/-- The lane after the sign is cleared: its visit may have been told of a bay. -/
theorem resetSigned_lane (s : State) (l : LaneNo) : ∃ vis : Option Visit,
    (resetSigned s l).lane l = { s.lane l with visit := vis, sign := Sign.clear (s.lane l).sign } ∧
    vis.map (fun v => (v.number, v.verdict)) = (s.visit l).map fun v => (v.number, v.verdict) := by
  obtain ⟨vis, hl, hv⟩ := (returnBay_told (s.release l .turned) l).lanes l
  refine ⟨vis, ?_, hv.trans ?_⟩
  · rw [resetSigned, State.modSign, State.modLane_lane, hl, lane_setPool, release_eq, lane_setBook]
  · rw [lane_setPool, release_eq, lane_setBook]; rfl

theorem resetSigned_told (s : State) (l : LaneNo) :
    (resetSigned s l).book = releasedBook s ((s.visit l).bind Visit.claimed) .turned ∧
    (resetSigned s l).pool = returnedPool s l ∧ (resetSigned s l).exc = s.exc ∧ (resetSigned s l).store = s.store ∧
    (resetSigned s l).nextVisit = s.nextVisit := by
  have h := returnBay_told (s.release l .turned) l
  refine ⟨h.book.trans ?_, h.pool.trans ?_, h.exc.trans ?_, h.store.trans ?_, h.nextVisit.trans ?_⟩
  all_goals rw [release_eq]
  rfl

/-- The lowered barrier of a reset. -/
def resetBarrier (s : State) (l : LaneNo) : Barrier :=
  (s.barrier l).lowered (s.input l .exit) (s.input l .downSense) s.store.work.lowerTime

theorem resetSigned_input (s : State) (l : LaneNo) (i : Input) : (resetSigned s l).input l i = s.input l i := by
  obtain ⟨vis, hl, -⟩ := resetSigned_lane s l
  exact input_of_lines (by rw [hl]) i

theorem resetLowered_armTo (s : State) (l : LaneNo) : ArmTo l (resetSigned s l) (resetBarrier s l) (resetLowered s l) := by
  obtain ⟨vis, hl, -⟩ := resetSigned_lane s l
  refine (lowerArm_armTo _ l).cast ?_
  rw [resetSigned_input, resetSigned_input, (resetSigned_told s l).2.2.2.1, State.barrier, hl]
  rfl

/-- The lane's visit is formed or not as before. -/
theorem resetSigned_formed (s : State) (l : LaneNo) : (resetSigned s l).verdictFormed l = s.verdictFormed l := by
  obtain ⟨vis, hl, hv⟩ := resetSigned_lane s l
  have key : ∀ o : Option Visit, (o.any fun v => v.verdict.isSome) =
      (o.map fun v => (v.number, v.verdict)).any fun p => p.2.isSome := by
    intro o; cases o <;> rfl
  rw [State.verdictFormed, State.verdictFormed, key, key, ← hv, State.visit, hl]

/-- A barrier that finds its position at the reset of a lane. -/
def foundAt (s : State) (l : LaneNo) (b : Barrier) (formed : Bool) : Barrier :=
  b.found (s.input l .upSense) (s.input l .downSense) formed s.store.work.raiseTime s.store.work.lowerTime

/-- Some OPEN BARRIER_FAULT is among the entries of a sort. -/
def faultAmong (p : Entry → Bool) (es : List Entry) : Bool :=
  es.any fun e => p e && e.state == .opened && e.kind == .barrierFault

theorem resetDiscarded_armTo (s : State) (l : LaneNo) : ArmTo l (resetSigned s l)
    (if faultAmong (resetWith l ((s.visit l).map Visit.number)) (resetLowered s l).exc.entries then
      foundAt s l (resetBarrier s l) (s.verdictFormed l) else resetBarrier s l) (resetDiscarded s l) := by
  have h := resetLowered_armTo s l
  refine (h.trans (discard_armTo _ l _)).cast ?_
  rw [h.barrier, h.input, h.input, resetSigned_input, resetSigned_input, State.verdictFormed, h.visit, h.beside.store,
    (resetSigned_told s l).2.2.2.1, ← State.verdictFormed, resetSigned_formed]
  rfl

/-! ### The barrier and the entries of a reset -/

/-- A barrier at rest DOWN. -/
def atRest : Barrier := ⟨.down, none, false, false, none⟩

theorem foundAt_atRest (s : State) (l : LaneNo) (formed : Bool) : foundAt s l atRest formed = atRest := rfl

theorem enterLowering_exc_or_down (s : State) (l : LaneNo) :
    (s.enterLowering l).1.exc = s.exc ∨ ∀ b time, lowering b (s.input l .downSense) time = atRest := by
  unfold State.enterLowering
  dsimp only
  split
  · next h => exact .inr fun b time => by rw [lowering, if_pos h]; rfl
  · exact .inl rfl

/-- The lower command clears an entry only where the barrier comes to rest DOWN. -/
theorem lowerArm_exc_or_down (s : State) (l : LaneNo) : (s.lowerArm l).1.exc = s.exc ∨
    (s.barrier l).lowered (s.input l .exit) (s.input l .downSense) s.store.work.lowerTime = atRest := by
  have hl := (enterLowering_exc_or_down s l).imp_right fun h => h (s.barrier l) s.store.work.lowerTime
  simp only [State.lowerArm, Barrier.lowered]
  cases (s.barrier l).state
  case up | raising =>
    dsimp only
    split
    · exact .inl rfl
    · exact hl.imp_right fun h => by simpa [lowering] using h
  case down | lowering => exact .inl rfl
  case fault =>
    dsimp only
    split
    · exact .inl rfl
    · exact hl.imp_right fun h => by simpa [lowering] using h

theorem resetLowered_exc_or_down (s : State) (l : LaneNo) :
    (resetLowered s l).exc = s.exc ∨ resetBarrier s l = atRest := by
  have h := lowerArm_exc_or_down (resetSigned s l) l
  have hb : (resetSigned s l).barrier l = s.barrier l := by
    obtain ⟨vis, hl, -⟩ := resetSigned_lane s l
    rw [State.barrier, hl]; rfl
  rw [resetSigned_input, resetSigned_input, (resetSigned_told s l).2.2.2.1, (resetSigned_told s l).2.2.1, hb] at h
  exact h

/-- The entries discarded are those of the visit, and those of none, that stand OPEN or LOGGED. -/
theorem faultAmong_resetWith (l : LaneNo) (n : Option Nat) (es : List Entry) :
    faultAmong (resetWith l n) es = es.any fun e => e.lane == some l && e.state == .opened && e.kind == .barrierFault &&
      (e.visit == none || e.visit == n) == true := by
  unfold faultAmong
  congr 1
  funext e
  rw [Bool.eq_iff_iff]
  simp only [resetWith, Entry.resetWith, Bool.and_eq_true, Bool.or_eq_true, beq_iff_eq]
  tauto

/-- What a reset leaves OPEN names another visit. -/
theorem faultAmong_left (l : LaneNo) (n : Option Nat) (es : List Entry) :
    faultAmong (openAt l) (discarded (resetWith l n) es) = es.any fun e => e.lane == some l && e.state == .opened &&
      e.kind == .barrierFault && (e.visit == none || e.visit == n) == false := by
  unfold faultAmong discarded
  rw [List.any_map]
  congr 1
  funext e
  by_cases hr : resetWith l n e = true
  · have hv : (e.visit == none || e.visit == n) = true := by
      simp only [resetWith, Entry.resetWith, Bool.and_eq_true] at hr
      exact hr.2
    simp only [Function.comp, if_pos hr, hv]
    simp [Entry.resolved]
  · rw [Bool.eq_iff_iff]
    simp only [resetWith, Entry.resetWith, Bool.and_eq_true, Bool.or_eq_true, beq_iff_eq] at hr
    simp only [Function.comp, resetWith, Entry.resetWith, openAt, Bool.and_eq_true, Bool.or_eq_true, beq_iff_eq, if_neg hr,
      beq_eq_false_iff_ne, Bool.or_eq_false_iff]
    tauto

/-- A discard of entries of a lane leaves the entries of the others. -/
theorem filter_discarded {p : Entry → Bool} (hp : ∀ e, p e = true → e.lane = some l) (es : List Entry) :
    (discarded p es).filter (fun e => e.lane ≠ some l) = es.filter fun e => e.lane ≠ some l := by
  induction es with
  | nil => rfl
  | cons e es ih =>
    have hc : discarded p (e :: es) = (if p e then e.resolved .discarded else e) :: discarded p es := rfl
    rw [hc]
    split
    · next h =>
      rw [List.filter_cons_of_neg (by simp [Entry.resolved, hp e h]), List.filter_cons_of_neg (by simp [hp e h]), ih]
    · rw [List.filter_cons, List.filter_cons, ih]

/-- Entries of one number that are a lane's may change without a change to the others. -/
theorem filter_cleared {es : List Entry} {n : Nat} (h : ∀ e ∈ es, e.number = n → e.lane = some l) :
    (es.map fun e => if e.number = n then e.resolved .cleared else e).filter (fun e => e.lane ≠ some l) =
      es.filter fun e => e.lane ≠ some l := by
  induction es with
  | nil => rfl
  | cons e es ih =>
    have ih' := ih fun d hd => h d (List.mem_cons_of_mem _ hd)
    rw [List.map_cons]
    split
    · next hn =>
      have hl := h e List.mem_cons_self hn
      rw [List.filter_cons_of_neg (by simp [Entry.resolved, hl]), List.filter_cons_of_neg (by simp [hl]), ih']
    · rw [List.filter_cons, List.filter_cons, ih']

/-- The number of the lane's OPEN BARRIER_FAULT is that of an entry of the lane alone. -/
theorem barrierEntry_owned (hb : Bounds s) {n : Nat} (h : s.barrierEntry l = some n) :
    ∀ e ∈ s.exc.entries, e.number = n → e.lane = some l := by
  intro e he hn
  have hl := State.barrierEntry_lane hb h
  unfold State.barrierEntry at h
  obtain ⟨d, hd, rfl⟩ := Option.map_eq_some_iff.mp h
  rw [hb.entry_mem (hb.entry_find hd) he hn]
  exact hl d (hb.entry_find hd)

theorem resetLowered_others (hb : Bounds s) (l : LaneNo) : (resetLowered s l).exc.entries.filter (fun e => e.lane ≠ some l) =
    s.exc.entries.filter fun e => e.lane ≠ some l := by
  have he := (resetSigned_told s l).2.2.1
  rcases lowerArm_exc (resetSigned s l) l with h | ⟨-, n, hn, h⟩
  · rw [resetLowered, h, he]
  · rw [resetLowered, h, he]
    refine filter_cleared (barrierEntry_owned hb ?_)
    rw [State.barrierEntry, he] at hn
    exact hn

/-- Every entry of a lane that names a visit, or none, is RESOLVED. -/
def SettledFor (l : LaneNo) (n : Option Nat) (es : List Entry) : Prop :=
  ∀ e ∈ es, e.lane = some l → e.visit = none ∨ e.visit = n → e.state = .resolved

theorem settledFor_resetWith (l : LaneNo) (n : Option Nat) (es : List Entry) :
    SettledFor l n (discarded (resetWith l n) es) := by
  intro e he hl hv
  obtain ⟨d, -, rfl⟩ := List.mem_map.mp he
  split
  · rfl
  · next hr =>
    rw [if_neg hr] at hl hv
    cases hs : d.state
    case resolved => rfl
    all_goals exact absurd (by rcases hv with h | h <;> simp [resetWith, Entry.resetWith, hl, hs, h]) hr

theorem SettledFor.discarded {n : Option Nat} {es : List Entry} (h : SettledFor l n es) (p : Entry → Bool) :
    SettledFor l n (discarded p es) := by
  intro e he hl hv
  obtain ⟨d, hd, rfl⟩ := List.mem_map.mp he
  split
  · rfl
  · next hr =>
    rw [if_neg hr] at hl hv
    exact h d hd hl hv

theorem none_openAt (l : LaneNo) (es : List Entry) : ∀ e ∈ discarded (openAt l) es, e.lane = some l → e.state ≠ .opened := by
  intro e he hl ho
  obtain ⟨d, -, rfl⟩ := List.mem_map.mp he
  split at ho
  · cases ho
  · next hr =>
    rw [if_neg hr] at hl
    exact hr (by simp [openAt, hl, ho])

/-! ### The part as the lane of a reset enters IDLE -/

/-- Some OPEN BARRIER_FAULT of the lane names the visit, or none (`present`), or another visit. -/
def faultNamed (s : State) (l : LaneNo) (present : Bool) : Bool :=
  s.exc.entries.any fun e => e.lane == some l && e.state == .opened && e.kind == .barrierFault &&
    (e.visit == none || e.visit == (s.visit l).map Visit.number) == present

/-- The barrier of a reset after the discards of the visit's entries. -/
def resetFound (s : State) (l : LaneNo) : Barrier :=
  if faultNamed s l true then foundAt s l (resetBarrier s l) (s.verdictFormed l) else resetBarrier s l

theorem resetDiscarded_barrier (s : State) (l : LaneNo) : ArmTo l (resetSigned s l) (resetFound s l) (resetDiscarded s l) := by
  refine (resetDiscarded_armTo s l).cast ?_
  rcases resetLowered_exc_or_down s l with h | h
  · rw [h, faultAmong_resetWith]; rfl
  · rw [resetFound, h, foundAt_atRest, ite_self, ite_self]

theorem resetting_lane (s : State) (l : LaneNo) : (resetting s l).lane l = { s.lane l with
    visit := none, interrupted := none, noted := ⟨false, false, false⟩, lamp := .red
    sign := Sign.clear (s.lane l).sign, barrier := resetFound s l } := by
  obtain ⟨vis, hl, -⟩ := resetSigned_lane s l
  rw [resetting, State.modLane_lane, lane_setExc, (resetDiscarded_barrier s l).lane, hl]

theorem resetting_entries (s : State) (l : LaneNo) : (resetting s l).exc.entries =
    discarded (resetWith l ((s.visit l).map Visit.number)) (resetLowered s l).exc.entries :=
  congrArg ExcTable.entries (discard_exc (resetLowered s l) l _)

theorem resetting_unrecorded (s : State) (l : LaneNo) : (resetting s l).exc.unrecorded.get l = false :=
  PerLane.get_set_same ..

theorem resetting_beside (s : State) (l : LaneNo) : Beside l (resetSigned s l) (resetting s l) :=
  ((resetDiscarded_barrier s l).beside.setExc _).modLane _

theorem resetting_nextVisit (s : State) (l : LaneNo) : (resetting s l).nextVisit = s.nextVisit :=
  (resetDiscarded_barrier s l).nextVisit.trans (resetSigned_told s l).2.2.2.2

theorem resetting_freshVisit (s : State) (l : LaneNo) : freshVisit (resetting s l) l = freshVisit s l := by
  rw [freshVisit, resetting_nextVisit, (resetting_beside s l).store, (resetSigned_told s l).2.2.2.1,
    input_of_lines (s := s) (by rw [resetting_lane])]
  rfl

theorem resetting_taken (s : State) (l : LaneNo) : entryTaken (resetting s l) l = (s.input l .arrival || s.input l .stop) := by
  have hi := input_of_lines (s := s) (t := resetting s l) (l := l) (by rw [resetting_lane])
  rw [entryTaken, hi, hi]

/-- The barrier of a reset lane that goes on to CLOSED (R65, R161). -/
theorem resetting_closedBarrier (s : State) (l : LaneNo) (c : LaneCause) :
    closedBarrier ((resetting s l).changeLane l .idle c) l =
      if faultNamed s l false then foundAt s l (resetFound s l) false else resetFound s l := by
  have hl : ((resetting s l).changeLane l .idle c).lane l = { (resetting s l).lane l with state := .idle } :=
    changeLane_lane ..
  have hi : ∀ i, ((resetting s l).changeLane l .idle c).input l i = s.input l i := by
    intro i
    exact input_of_lines (by rw [hl, resetting_lane]) i
  have hf : ((resetting s l).changeLane l .idle c).verdictFormed l = false := by
    rw [State.verdictFormed, State.visit, hl, resetting_lane]; rfl
  have hb : ((resetting s l).changeLane l .idle c).barrier l = resetFound s l := by
    rw [State.barrier, hl, resetting_lane]
  rw [closedBarrier, hi, hi, hf, hb, changeLane_store, (resetting_beside s l).store, (resetSigned_told s l).2.2.2.1,
    changeLane_exc, resetting_entries, faultNamed, ← faultAmong_left]
  rcases resetLowered_exc_or_down s l with h | h
  · rw [h]; rfl
  · have hr : resetFound s l = atRest := by rw [resetFound, h, foundAt_atRest, ite_self]
    rw [hr, foundAt_atRest, ite_self]
    exact ite_self _

end Sys2Proof.Machine.VisitLaws

open Sys2Proof Sys2Proof.Machine Sys2Proof.Machine.VisitLaws in
/-- Settles O28: the stages of the reset end in `resetting`, and the lane enters IDLE from there. -/
theorem resetLaneEndsTheVisit : Obligations.ResetLaneEndsTheVisit := by
  intro s u tag body n hask hn hbounds
  have answers : ∀ {a}, ruleResetLane u n = a → Answers (.resetLane tag body) s 0x0B tag a.s a.status a.data :=
    fun {_} ha => answers_of_rule rfl hask hn ha
  refine ⟨fun hl => answers (withLane_none hl _), fun l hl => ?_⟩
  have rule := withLane_some (s := u) hl
  refine ⟨fun h => answers ((rule _).trans (if_pos h)), fun h =>
    ⟨u.resetLane l, answers ((rule _).trans (if_neg h)), ?_⟩⟩
  rw [resetLane_eq]
  have hlane := resetting_lane u l
  have hbeside := (resetting_beside u l).trans (enterIdle_beside _ l .reset)
  have hkeeps := enterIdle_keeps (resetting u l) l .reset
  rw [hlane] at hkeeps
  have htold := resetSigned_told u l
  have hpool : ((resetting u l).enterIdle l .reset).pool = returnedPool u l := hbeside.pool.trans htold.2.1
  have hsettled : SettledFor l ((u.visit l).map Visit.number) (resetting u l).exc.entries := by
    rw [resetting_entries]; exact settledFor_resetWith l _ _
  have hothers : (resetting u l).exc.entries.filter (fun e => e.lane ≠ some l) =
      u.exc.entries.filter fun e => e.lane ≠ some l := by
    rw [resetting_entries, filter_discarded (fun e he => ?_), resetLowered_others hbounds]
    simp only [resetWith, Entry.resetWith, Bool.and_eq_true, beq_iff_eq] at he
    exact he.1.1
  have hexc := enterIdle_exc (resetting u l) l .reset
  have hbarrier := enterIdle_barrier (resetting u l) l .reset
  rw [hlane] at hexc hbarrier
  refine ⟨hbeside.book.trans htold.1, fun hv => hpool.trans (returnedPool_noVisit hv), fun v hv => ⟨fun hm => ?_,
    fun pre h post hb hm hp => ⟨fun hw => ?_, fun k rest hw hfull => ?_⟩, fun pre h post hw hm hp hb => ?_⟩, ?_,
    hkeeps.sign.trans (sign_clear _), ?_, hkeeps.interrupted, hkeeps.lamp, hkeeps.lines, fun hc => ?_, ?_, fun hc => ?_, ?_, fun hc => ?_⟩
  · exact hpool.trans (returnedPool_none hv (without_none fun k hk => mt (ofVisit_iff k l v).mp (hm k hk)))
  · rw [hpool, returnedPool_some hv (without_bay hb ((ofVisit_iff h l v).mpr hm) fun k hk => mt (ofVisit_iff k l v).mp (hp k hk)),
      hw]
    rfl
  · rw [hpool, returnedPool_some hv (without_bay hb ((ofVisit_iff h l v).mpr hm) fun k hk => mt (ofVisit_iff k l v).mp (hp k hk)),
      hw, servePool_first _ _ _ hfull]
  · have hb' : ∀ b ∈ u.pool.bays, ∃ k, b = some k ∧ ¬ k.ofVisit l v = true := fun b hb'' =>
      (hb b hb'').imp fun k hk => hk.imp_right (mt (ofVisit_iff k l v).mp)
    rw [hpool, returnedPool_some hv (without_waiting hw ((ofVisit_iff h l v).mpr hm)
      (fun k hk => mt (ofVisit_iff k l v).mp (hp k hk)) hb')]
    rw [servePool_full]
    intro b hb''
    obtain ⟨k, rfl, -⟩ := hb b hb''
    simp
  · rw [hbarrier, resetting_closedBarrier, State.barrier, hlane]
    cases u.lane l |>.closePending <;> rfl
  · rw [hexc]
    cases (u.lane l).closePending <;> exact resetting_unrecorded u l
  · have hclosed := enterIdle_closed (s := resetting u l) (l := l) (c := .reset) (by rw [hlane]; exact hc)
    exact ⟨hclosed.1, hclosed.2.trans (by rw [hlane])⟩
  · rw [hexc]
    cases (u.lane l).closePending
    · exact hsettled
    · exact hsettled.discarded _
  · rw [hexc, hc]
    exact none_openAt l _
  · rw [hexc]
    cases (u.lane l).closePending
    · exact hothers
    · refine (filter_discarded (fun e he => ?_) _).trans hothers
      simp only [openAt, Bool.and_eq_true, beq_iff_eq] at he
      exact he.1
  · have hc' : ((resetting u l).lane l).closePending = false := by rw [hlane]; exact hc
    rw [← resetting_taken]
    cases ht : entryTaken (resetting u l) l
    · rw [enterIdle_idle hc' ht, changeLane_lane, hlane]
      exact ⟨rfl, rfl⟩
    · rw [(enterIdle_opening hc' ht).1, openedLane, resetting_freshVisit]
      exact ⟨rfl, rfl⟩
end

section
/-! SUPPORT. O30: the requests and timers of the search. -/

namespace Sys2Proof.Machine.VisitLaws

variable {s t u : State} {l : LaneNo}

/-! ### Booking numbers (R2) -/

theorem numberInRange_iff (k : Nat) : numberInRange k = true ↔ 1 ≤ k ∧ k ≤ 99999999 := by
  unfold numberInRange
  rw [Bool.and_eq_true, decide_eq_true_iff, decide_eq_true_iff]
  rfl

theorem numberInRange_false {k : Nat} (h : k = 0 ∨ 99999999 < k) : numberInRange k = false := by
  rw [Bool.eq_false_iff, ne_eq, numberInRange_iff]
  omega

/-! ### KEYED_BOOKING (R37) -/

theorem ruleKeyed_range {n k : Nat} (hl : laneOf n = some l) (hk : k = 0 ∨ 99999999 < k) :
    ruleKeyed s (n, k) = refuse s .range :=
  (withLane_some hl _).trans (if_pos (numberInRange_false hk))

/-- What a keyed number in range comes to at its lane. -/
def keyedAt (s : State) (l : LaneNo) (k : Nat) : Ans :=
  match (s.lane l).state, s.visit l with
  | .arriving, some _ | .awaitingHost, some _ => okay ((s.recordKeyed l k).tryMatch l)
  | .trouble, some v =>
    match v.matchState with
    | .notTried | .waiting => okay (s.recordKeyed l k)
    | .failed => okay ((s.recordKeyed l k).setMatch l .waiting)
    | .looking | .claimed => refuse s .wrongState
  | _, _ => refuse s .wrongState

theorem ruleKeyed_eq {n k : Nat} (hl : laneOf n = some l) (h1 : 1 ≤ k) (h2 : k ≤ 99999999) :
    ruleKeyed s (n, k) = keyedAt s l k :=
  (withLane_some hl _).trans (if_neg (by rw [(numberInRange_iff k).mpr ⟨h1, h2⟩]; decide))

/-- No lane but one in ARRIVING, AWAITING_HOST or TROUBLE with a visit takes a keyed number. -/
theorem keyedAt_refused {k : Nat} (h : (s.lane l).state = .closed ∨ (s.lane l).state = .idle ∨ (s.lane l).state = .checking ∨
    (s.lane l).state = .decided ∨ (s.lane l).state = .exiting ∨ s.visit l = none) : keyedAt s l k = refuse s .wrongState := by
  unfold keyedAt
  rcases h with h | h | h | h | h | h
  case inr.inr.inr.inr.inr => rw [h]; cases (s.lane l).state <;> rfl
  all_goals rw [h]

theorem keyedAt_search {k : Nat} {v : Visit} (hv : s.visit l = some v)
    (h : (s.lane l).state = .arriving ∨ (s.lane l).state = .awaitingHost) :
    keyedAt s l k = okay ((s.modVisit l fun v => { v with keyed := some k }).tryMatch l) := by
  unfold keyedAt
  rcases h with h | h <;> rw [h, hv] <;> rfl

theorem keyedAt_trouble {k : Nat} {v : Visit} (hv : s.visit l = some v) (h : (s.lane l).state = .trouble) : keyedAt s l k =
    match v.matchState with
    | .notTried | .waiting => okay (s.recordKeyed l k)
    | .failed => okay ((s.recordKeyed l k).setMatch l .waiting)
    | .looking | .claimed => refuse s .wrongState := by
  unfold keyedAt
  rw [h, hv]

/-- A change of the lane's visit depends on the visit it holds alone. -/
theorem modVisit_congr {v : Visit} {f g : Visit → Visit} (hv : s.visit l = some v) (h : f v = g v) :
    s.modVisit l f = s.modVisit l g := by
  have hv' : (s.lane l).visit = some v := hv
  rw [State.modVisit, State.modVisit, modLane_eq, modLane_eq, Lane.modVisit, Lane.modVisit, hv', Option.map_some,
    Option.map_some, h]

theorem modVisit_modVisit (s : State) (l : LaneNo) (f g : Visit → Visit) :
    (s.modVisit l f).modVisit l g = s.modVisit l fun v => g (f v) := by
  rw [State.modVisit, State.modVisit, State.modVisit, modLane_eq, State.modLane_lane, modLane_eq, setLane_setLane, modLane_eq]
  simp [Lane.modVisit, Function.comp_def]

/-- The recorded key in TROUBLE: a failed match waits again. -/
theorem keyedAt_recorded {k : Nat} {v : Visit} (hv : s.visit l = some v) (h : (s.lane l).state = .trouble)
    (hm : v.matchState = .notTried ∨ v.matchState = .waiting ∨ v.matchState = .failed) :
    keyedAt s l k = okay (s.modVisit l fun v => { v with
      keyed := some k, matchState := if v.matchState = .failed then .waiting else v.matchState }) := by
  rw [keyedAt_trouble hv h]
  rcases hm with hm | hm | hm <;> simp only [hm]
  case inr.inr => exact congrArg okay ((modVisit_modVisit ..).trans (modVisit_congr hv (by simp [hm])))
  all_goals exact congrArg okay (modVisit_congr hv (by simp [hm]))

/-! ### LOOKUP_ANSWER (R33) -/

theorem ruleAnswer_range {r : AnswerReq} (hl : laneOf r.lane = some l)
    (h : r.number = some 0 ∨ ∃ k, r.number = some k ∧ 99999999 < k) : ruleAnswer s r = refuse s .range := by
  refine (withLane_some hl _).trans (if_pos ?_)
  obtain ⟨k, hn, hk⟩ : ∃ k, r.number = some k ∧ (k = 0 ∨ 99999999 < k) := by
    rcases h with h | ⟨k, h, hk⟩
    · exact ⟨0, h, .inl rfl⟩
    · exact ⟨k, h, .inr hk⟩
  rw [hn, Option.any_some, numberInRange_false hk]
  rfl

/-- What an answer in range comes to at its lane. -/
def answerAt (s : State) (l : LaneNo) (r : AnswerReq) : Ans :=
  if (s.visit l).any fun v => v.number == r.visit && v.matchState == .looking then
    match r.number with
    | some n => okay ((s.endLookup l).claimBooking l n)
    | none => okay (s.noBooking l 1)
  else refuse s .tooLate

theorem ruleAnswer_eq {r : AnswerReq} (hl : laneOf r.lane = some l) (h : ∀ k, r.number = some k → 1 ≤ k ∧ k ≤ 99999999) :
    ruleAnswer s r = answerAt s l r := by
  refine (withLane_some hl _).trans (if_neg ?_)
  cases hn : r.number with
  | none => decide
  | some k => rw [Option.any_some, (numberInRange_iff k).mpr (h k hn)]; decide

/-- A lookup of the visit that the answer names is outstanding. -/
theorem awaited_iff (s : State) (l : LaneNo) (n : Nat) :
    ((s.visit l).any fun v => v.number == n && v.matchState == .looking) = true ↔
      ∃ v, s.visit l = some v ∧ v.number = n ∧ v.matchState = .looking := by
  simp [Option.any_eq_true]

theorem answerAt_late {r : AnswerReq} (h : ¬∃ v, s.visit l = some v ∧ v.number = r.visit ∧ v.matchState = .looking) :
    answerAt s l r = refuse s .tooLate := if_neg (mt (awaited_iff s l r.visit).mp h)

theorem answerAt_awaited {r : AnswerReq} (h : ∃ v, s.visit l = some v ∧ v.number = r.visit ∧ v.matchState = .looking) :
    answerAt s l r = match r.number with
      | some n => okay ((s.endLookup l).claimBooking l n)
      | none => okay (s.noBooking l 1) := if_pos ((awaited_iff s l r.visit).mpr h)

/-! ### The timers of the search (R29, R34) -/

theorem running_eq {v : Visit} (hv : s.visit l = some v) (f : Visit → Option Nat) : s.running l f = (f v).isSome := by
  rw [State.running, hv]
  rfl

theorem event_powered (h : s.power = true) (f : State → State) : event s f = .next (f s) := by
  rw [event, if_pos h]

end Sys2Proof.Machine.VisitLaws

open Sys2Proof Sys2Proof.Machine Sys2Proof.Machine.VisitLaws in
/-- Settles O30: each rule by its refusals and by what `keyedAt` and `answerAt` come to. -/
theorem theSearchIsCommanded : Obligations.TheSearchIsCommanded := by
  refine ⟨fun s u tag body => ⟨fun n k hask hr hl => ?_, fun r hask hr hl => ?_⟩, fun s u tag body l =>
    ⟨fun n k hask hr hl => ?_, fun r hask hr hl => ?_, fun hp v hv => ⟨?_, ?_⟩⟩⟩
  · exact answers_of_rule (rule := ruleKeyed) rfl hask hr (withLane_none hl _)
  · exact answers_of_rule (rule := ruleAnswer) rfl hask hr (withLane_none hl _)
  · have answers : ∀ {a}, ruleKeyed u (n, k) = a → Answers (.keyedBooking tag body) s 0x0D tag a.s a.status a.data :=
      fun {_} ha => answers_of_rule rfl hask hr ha
    refine ⟨fun hk => answers (ruleKeyed_range hl hk), fun h1 h2 => ?_⟩
    have hat := ruleKeyed_eq (s := u) hl h1 h2
    refine ⟨fun h => answers (hat.trans (keyedAt_refused h)), fun v hv => ⟨fun h hm => ?_, fun h hm => ?_, fun h => ?_⟩⟩
    · exact answers (hat.trans ((keyedAt_trouble hv h).trans (by rw [hm])))
    · exact answers (hat.trans (keyedAt_recorded hv h hm))
    · exact answers (hat.trans (keyedAt_search hv h))
  · have answers : ∀ {a}, ruleAnswer u r = a → Answers (.lookupAnswer tag body) s 0x0E tag a.s a.status a.data :=
      fun {_} ha => answers_of_rule rfl hask hr ha
    refine ⟨fun h => answers (ruleAnswer_range hl h), fun h => ?_⟩
    have hat := ruleAnswer_eq (s := u) hl h
    refine ⟨fun hw => answers (hat.trans (answerAt_late hw)), fun hw hn => ?_, fun hw k hn => ?_⟩
    · exact answers (hat.trans ((answerAt_awaited hw).trans (by rw [hn])))
    · exact answers (hat.trans ((answerAt_awaited hw).trans (by rw [hn])))
  · refine (event_powered hp _).trans ?_
    rw [running_eq hv]
  · refine (event_powered hp _).trans ?_
    rw [running_eq hv]
end

section
/-! SUPPORT. O29: the report of GET_LANE, its fields regrouped as the statement lists them, and the changed marks it clears. -/

namespace Sys2Proof.Machine.VisitLaws

variable {s : State} {l : LaneNo}

/-! ### The fields of the report -/

/-- The damage part's numbers stand in a row of two-byte fields (R103). -/
theorem damagePartFields_eq (p : DamagePart) : damagePartFields p =
    optField (fun x : Survey => listField defectField x.defects) p.held ++
      optField (fun x : Survey => listField defectField x.defects) p.graded ++
      [p.sums.left, p.sums.right, p.sums.frontEnd, p.sums.doorEnd, p.sums.roof, p.index, p.excess].flatMap u16 ++
      flag p.breach ++ u16 p.knownUsed ++ u8 p.outcome.ctorIdx ++ u8 p.phase.ctorIdx ++ flag p.notedMark ++
      flag p.severeMark ++ flag p.missingMark ++ u8 p.survived := by
  simp only [damagePartFields, List.flatMap_cons, List.flatMap_nil, List.append_assoc, List.nil_append]

/-- A position that has been made is its mark and its fields. -/
theorem posField'_eq (r : PosRec) : posField' r = if r.made then 1 :: posFields r else [0] := by
  unfold posField'
  cases r.made <;> rfl

/-- The value that a check stands at (R115): an override to FAIL is SEVERE for the damage checks. -/
theorem checkValue_eq (c : CheckName) (k : Check) : k.value c = match k.override with
    | none => k.outcome
    | some b => if b then .pass else if c = .damageFront ∨ c = .damageRear then .severe else .fail := by
  unfold Check.value
  rcases k.override with _ | _ | _
  · rfl
  · cases c <;> rfl
  · rfl

/-- The running timers of the visit are five optional fields in a row. -/
theorem visitTimers_eq (v : Visit) :
    visitTimers v = [v.idSettle, v.lookup, v.abandon, v.sealWait, v.surveyWait].flatMap (optField u16) := by
  simp only [visitTimers, List.flatMap_cons, List.flatMap_nil, List.append_assoc, List.append_nil]

/-! ### The changed marks -/

/-- Clearing the changed marks clears that mark of every check and touches nothing else. -/
theorem clearMarks_get (c : Checks) (k : CheckName) : c.clearMarks.get k = { c.get k with changed := false } := by
  cases k <;> rfl

theorem ruleGetLane_eq {n : Nat} (hl : laneOf n = some l) : ruleGetLane s n =
    ⟨s.modVisit l fun v => { v with checks := v.checks.clearMarks }, .ok, laneReport s l⟩ := withLane_some hl _

/-- Without a visit nothing is cleared. -/
theorem modVisit_none (h : s.visit l = none) (f : Visit → Visit) : s.modVisit l f = s := by
  have hl : (s.lane l).visit = none := h
  have hx : ({ s.lane l with visit := none } : Lane) = s.lane l := by rw [← hl]
  rw [State.modVisit, modLane_eq, Lane.modVisit, hl, Option.map_none, hx, setLane_self]

theorem modVisit_some {v : Visit} (h : s.visit l = some v) (f : Visit → Visit) :
    s.modVisit l f = s.setLane l { s.lane l with visit := some (f v) } := by
  have hl : (s.lane l).visit = some v := h
  rw [State.modVisit, modLane_eq, Lane.modVisit, hl, Option.map_some]

end Sys2Proof.Machine.VisitLaws

open Sys2Proof Sys2Proof.Machine Sys2Proof.Machine.VisitLaws in
/-- Settles O29: the statement's fields are the model's, and the marks are cleared behind the report. -/
theorem getLaneReportsAndClears : Obligations.GetLaneReportsAndClears := by
  intro s u tag body n hask hr
  refine ⟨fun hl => answers_of_rule (rule := ruleGetLane) rfl hask hr (withLane_none hl _), fun l hl => ?_⟩
  intro x mark first opt many text inputs loops raw value forced watch seen defects seals damage position waiver check names
    visit report answered
  have hopt : ∀ {α : Type}, opt (α := α) = optField := by
    intro α
    funext f o
    cases o <;> rfl
  have hforced : forced = fun o => match o with | none => [0] | some true => [1] | some false => [2] := by
    funext o
    rcases o with _ | _ | _ <;> rfl
  have hdamage : damage = damagePartFields := by
    funext p
    rw [damagePartFields_eq, ← hopt]
    rfl
  have hseals : seals = sealPartFields := by
    funext p
    unfold sealPartFields
    rw [← hopt]
    rfl
  have hposition : position = posField' := by
    funext r
    rw [posField'_eq, posFields, ← hopt, ← hopt, ← hseals, ← hdamage]
    simp only [position]
    rfl
  have hwaiver : waiver = waiverField := by
    funext w
    cases w <;> rfl
  have hcheck : check = checkFields := by
    funext c k
    unfold checkFields
    rw [checkValue_eq, ← hwaiver]
    simp only [check, hforced]
    rfl
  have hvisit : visit = visitFields := by
    funext v
    simp only [visit, visitFields, visitRead, visitProgress, visitTimers_eq, checksFields, hopt, hposition, hcheck,
      List.append_assoc]
    rfl
  have hreport : report = laneReport u l := by
    simp only [report, laneReport, barrierFields, inputFields, hopt, hvisit, hforced, List.append_assoc]
    rfl
  have hans : Answers (.getLane tag body) s 0x0C tag (u.modVisit l fun v => { v with checks := v.checks.clearMarks }) .ok
      (laneReport u l) := answers_of_rule (rule := ruleGetLane) rfl hask hr (ruleGetLane_eq hl)
  rw [← hreport] at hans
  refine ⟨fun hv => ?_, fun v hv => ⟨v.checks.clearMarks, clearMarks_get _, ?_⟩⟩
  · rw [modVisit_none hv] at hans
    exact hans
  · rw [modVisit_some hv] at hans
    exact hans
end

section
/-! SUPPORT. Raising an exception for a lane's visit when the table has room: what is stored, and what the lane comes to under each
response. O31: the results of a match. -/

namespace Sys2Proof.Machine.VisitLaws

variable {s t : State} {l : LaneNo} {v w : Visit}

/-! ### The visit of a lane replaced -/

/-- The part with a lane's visit replaced. -/
def withVisit (s : State) (l : LaneNo) (v : Visit) : State := s.setLane l { s.lane l with visit := some v }

theorem modVisit_withVisit (hv : s.visit l = some v) (f : Visit → Visit) : s.modVisit l f = withVisit s l (f v) :=
  modVisit_some hv f

section WithVisit
variable (s : State) (l : LaneNo) (v : Visit)
@[simp] theorem withVisit_lane : (withVisit s l v).lane l = { s.lane l with visit := some v } := State.setLane_lane ..
@[simp] theorem withVisit_visit : (withVisit s l v).visit l = some v := by rw [State.visit, withVisit_lane]
@[simp] theorem withVisit_exc : (withVisit s l v).exc = s.exc := State.setLane_exc ..
@[simp] theorem withVisit_book : (withVisit s l v).book = s.book := State.setLane_book ..
@[simp] theorem withVisit_clock : (withVisit s l v).clock = s.clock := State.setLane_clock ..
@[simp] theorem withVisit_store : (withVisit s l v).store = s.store := State.setLane_store ..
@[simp] theorem modVisit_of_withVisit (f : Visit → Visit) : (withVisit s l v).modVisit l f = withVisit s l (f v) := by
  rw [modVisit_withVisit (withVisit_visit s l v), withVisit, withVisit_lane]
  exact setLane_setLane ..
@[simp] theorem evaluate_of_withVisit (n : CheckName) (a : Bool) : (withVisit s l v).evaluate l n a =
    withVisit s l (v.evaluate ((withVisit s l v).claimedMoves l) n a) := modVisit_of_withVisit ..
end WithVisit

theorem visitNumber_of_visit (hv : s.visit l = some v) : (s.lane l).visitNumber = v.number := by
  have hl : (s.lane l).visit = some v := hv
  rw [Lane.visitNumber, hl]; rfl

/-! ### TROUBLE -/

/-- A visit as TROUBLE leaves it: its timers stopped, an outstanding lookup ended (R44, R45). -/
def stilled (v : Visit) : Visit := { v with
  matchState := if v.matchState = .looking then .waiting else v.matchState
  idSettle := none, lookup := none, abandon := none, sealWait := none, surveyWait := none }

/-- What a lane in service and out of TROUBLE shows once it has entered TROUBLE. -/
structure InTrouble (l : LaneNo) (s t : State) : Prop where
  state : (t.lane l).state = .trouble
  interrupted : (t.lane l).interrupted = some (s.lane l).state
  lamp : (t.lane l).lamp = .red
  visit : t.visit l = (s.visit l).map stilled
  book : t.book = s.book
  entries : t.exc.entries = s.exc.entries.map fun e => if e.lane = some l then { e with left := none } else e
  next : t.exc.next = s.exc.next

theorem enterTrouble_shows (h : (s.lane l).state ≠ .closed) (k : (s.lane l).state ≠ .trouble) :
    InTrouble l s (s.enterTrouble l) := by
  simp only [State.enterTrouble, if_neg (not_or.mpr ⟨h, k⟩)]
  constructor
  case state => rw [changeLane_lane]
  case book => simp
  case entries => simp
  case next => simp
  case visit => simp only [State.visit, changeLane_lane, lane_setExc, State.modLane_lane]; rfl
  all_goals simp only [changeLane_lane, lane_setExc, State.modLane_lane]

/-- A lane in TROUBLE forms no verdict (R125). -/
theorem attempt_of_trouble (h : (s.lane l).state = .trouble) : s.attempt l = s :=
  if_pos (.inl (by rw [State.gathers, h]; rfl))

theorem setMatch_lane (s : State) (l : LaneNo) (m : MatchState) :
    ((s.setMatch l m).lane l) = (s.lane l).modVisit fun v => { v with matchState := m } := State.modVisit_lane ..

/-! ### Storing (R154, R156) -/

/-- The Exception Table can take an entry. -/
def Stores (s : State) : Prop := s.exc.entries.length < 32 ∧ s.exc.next ≤ 65535

/-- The part with a raise stored and told. -/
def stored (s : State) (r : Raise) (resp : Response) : State :=
  { s with exc := { s.exc with
    entries := s.exc.entries ++ [s.newEntry r resp false], next := s.exc.next + 1 } }.queueNotice
      (exceptionNotice (s.newEntry r resp false) false)

section Stored
variable (s : State) (r : Raise) (resp : Response)
@[simp] theorem stored_lane (m : LaneNo) : (stored s r resp).lane m = s.lane m := by simp [stored]
@[simp] theorem stored_visit (m : LaneNo) : (stored s r resp).visit m = s.visit m := by simp [State.visit]
@[simp] theorem stored_book : (stored s r resp).book = s.book := by simp [stored]
@[simp] theorem stored_entries : (stored s r resp).exc.entries = s.exc.entries ++ [s.newEntry r resp false] := by simp [stored]
end Stored

theorem room_of_stores (h : Stores s) : s.exc.room = some (s.exc.entries, false) := by
  rw [ExcTable.room, if_neg (by have := h.2; omega)]
  exact if_pos h.1

/-- What a raise of no overridden check comes to with room, by its response (R156). -/
def raised (s : State) (r : Raise) : Response → State × Answer
  | .silent => (s, .silent)
  | .note => (stored s r .note, .logged)
  | .retry => (stored s r .retry, .openRetry)
  | .hold => (match r.lane with | some l => (stored s r .hold).enterTrouble l | none => stored s r .hold, .openHold)

theorem raiseExc_stored (h : Stores s) {r : Raise} (ho : s.raiseOverridden r = false) {resp : Response}
    (hr : s.store.work.responseOf r.kind r.action = resp) : s.raiseExc r = raised s r resp := by
  cases resp <;> simp only [State.raiseExc, hr, ho, room_of_stores h] <;> rfl

/-- A raise of a SILENT kind does nothing, room or none. -/
theorem raiseExc_silent {r : Raise} (hr : s.store.work.responseOf r.kind r.action = .silent) :
    s.raiseExc r = (s, .silent) := by
  simp only [State.raiseExc, hr, if_pos]

/-! ### A failure of the search, raised for the visit (R31) -/

/-- A failure of the visit's search, raised with a detail value. -/
def searchRaise (l : LaneNo) (n : Nat) (k : ExcKind) (detail : Nat) : Raise := ⟨k, some l, some n, none, detail, .inspect⟩

/-- The kind is one of the failures of a search: its check is of the whole visit, its response a setting (section 10.2). -/
def SearchKind (k : ExcKind) (c : CheckName) : Prop :=
  k = .bookingInUse ∧ c = .booking ∨ k = .windowLateFull ∧ c = .timeliness ∨ k = .noBooking ∧ c = .booking

theorem raiseVisit_withVisit (k : ExcKind) (detail : Nat) :
    (withVisit s l w).raiseVisit k l none detail = (withVisit s l w).raiseExc (searchRaise l w.number k detail) := by
  rw [State.raiseVisit, withVisit_visit]; rfl

theorem SearchKind.checkOf {k : ExcKind} {c : CheckName} (h : SearchKind k c) : checkOf k none = some c := by
  rcases h with ⟨rfl, rfl⟩ | ⟨rfl, rfl⟩ | ⟨rfl, rfl⟩ <;> rfl

theorem SearchKind.responseOf {k : ExcKind} {c : CheckName} (h : SearchKind k c) (x : Settings) (a : WatchAction) :
    x.responseOf k a = if x.response k = .retry ∧ x.limit k = 0 then .hold else x.response k := by
  rcases h with ⟨rfl, -⟩ | ⟨rfl, -⟩ | ⟨rfl, -⟩ <;> rfl

theorem SearchKind.notOverridden {k : ExcKind} {c : CheckName} (h : SearchKind k c) (detail : Nat)
    (ho : (w.checks.get c).override = none) :
    (withVisit s l w).raiseOverridden (searchRaise l w.number k detail) = false := by
  simp only [State.raiseOverridden, searchRaise, h.checkOf, withVisit_visit, Option.any_some, ho]
  simp

/-- The entry that a failure of the search stores. -/
def searchEntry (s : State) (l : LaneNo) (n : Nat) (k : ExcKind) (detail : Nat) (r : Response) (st : EntryState)
    (left : Option Nat) : Entry :=
  ⟨s.exc.next, k, some l, some n, none, detail, s.clock.minute, r, 0, st, none, left, false⟩

/-- The lane is in TROUBLE over a failed search whose entry holds it. -/
structure SearchHeld (s : State) (l : LaneNo) (w : Visit) (e : Entry) (t : State) : Prop where
  state : (t.lane l).state = .trouble
  interrupted : (t.lane l).interrupted = some (s.lane l).state
  lamp : (t.lane l).lamp = .red
  visit : t.visit l = some { stilled w with matchState := .failed }
  book : t.book = s.book
  entries : t.exc.entries.getLast? = some e

/-- The failed search is noted, or passed over in silence: the lane goes on with it. -/
structure SearchNoted (s : State) (l : LaneNo) (w : Visit) (t : State) : Prop where
  state : (t.lane l).state = (s.lane l).state
  visit : t.visit l = some { w with matchState := .failed }
  book : t.book = s.book

section SearchFailure
variable {k : ExcKind} {c : CheckName} (hk : SearchKind k c) (ho : (w.checks.get c).override = none) (hst : Stores s)
  (detail : Nat)
include hk ho hst

theorem raiseVisit_stored {resp : Response}
    (hr : (if s.store.work.response k = .retry ∧ s.store.work.limit k = 0 then .hold else s.store.work.response k) = resp) :
    (withVisit s l w).raiseVisit k l none detail = raised (withVisit s l w) (searchRaise l w.number k detail) resp := by
  rw [raiseVisit_withVisit]
  exact raiseExc_stored (by rwa [Stores, withVisit_exc]) (hk.notOverridden detail ho)
    ((hk.responseOf _ _).trans (by rwa [withVisit_store]))

/-- Under HOLD, or RETRY with no retries allowed, the failure holds the lane. -/
theorem search_holds (hc : (s.lane l).state ≠ .closed) (ht : (s.lane l).state ≠ .trouble)
    (hr : (if s.store.work.response k = .retry ∧ s.store.work.limit k = 0 then .hold else s.store.work.response k) =
      Response.hold) : ∃ t, (withVisit s l w).raiseVisit k l none detail = (t, .openHold) ∧
        SearchHeld s l w (searchEntry s l w.number k detail .hold .opened none) (t.setMatch l .failed) := by
  refine ⟨_, raiseVisit_stored hk ho hst detail hr, ?_⟩
  have h := enterTrouble_shows (s := stored (withVisit s l w) (searchRaise l w.number k detail) .hold) (l := l)
    (by simpa using hc) (by simpa using ht)
  constructor
  case state => rw [setMatch_lane]; exact h.state
  case interrupted => rw [setMatch_lane]; exact h.interrupted.trans (by simp)
  case lamp => rw [setMatch_lane]; exact h.lamp
  case visit =>
    rw [State.setMatch, State.modVisit_visit]
    exact (congrArg (Option.map _) h.visit).trans (by simp)
  case book => exact h.book.trans (by simp)
  case entries =>
    refine (congrArg List.getLast? h.entries).trans ?_
    simp [State.newEntry, searchRaise, searchEntry]

/-- Under NOTE the failure is logged. -/
theorem search_noted (hr : s.store.work.response k = .note) : ∃ t,
    (withVisit s l w).raiseVisit k l none detail = (t, .logged) ∧ SearchNoted s l w (t.setMatch l .failed) ∧
      t.exc.entries = s.exc.entries ++ [searchEntry s l w.number k detail .note .logged none] := by
  refine ⟨_, raiseVisit_stored hk ho hst detail (resp := .note) (by rw [hr]; rfl), ⟨?_, ?_, ?_⟩, ?_⟩
  · rw [setMatch_lane]; simp
  · simp [State.setMatch]
  · simp [State.setMatch]
  · simp [State.newEntry, searchRaise, searchEntry]

/-- Under RETRY the failure stands OPEN, its retry timer running. -/
theorem search_retried (ht : (s.lane l).state ≠ .trouble) (hr : s.store.work.response k = .retry)
    (hz : s.store.work.limit k ≠ 0) : ∃ t, (withVisit s l w).raiseVisit k l none detail = (t, .openRetry) ∧
      t.lane l = { s.lane l with visit := some w } ∧ t.book = s.book ∧ t.exc.entries = s.exc.entries ++
        [searchEntry s l w.number k detail .retry .opened (some s.store.work.retryInterval)] := by
  refine ⟨_, raiseVisit_stored hk ho hst detail (resp := .retry) (by rw [hr, if_neg (by simp [hz])]), by simp, by simp, ?_⟩
  simp [State.newEntry, searchRaise, searchEntry, State.retryStart, ht]
end SearchFailure

/-- A SILENT failure changes nothing but the match state. -/
theorem search_silent {k : ExcKind} {c : CheckName} (hk : SearchKind k c) (detail : Nat)
    (hr : s.store.work.response k = .silent) : (withVisit s l w).raiseVisit k l none detail = (withVisit s l w, .silent) := by
  rw [raiseVisit_withVisit]
  exact raiseExc_silent ((hk.responseOf _ _).trans (by simp [hr]))

/-! ### Results of a match (R30, R31) -/

section WithVisitMore
variable (s : State) (l : LaneNo)
theorem withVisit_withVisit (v w : Visit) : withVisit (withVisit s l v) l w = withVisit s l w := by
  rw [withVisit, withVisit_lane]
  exact setLane_setLane ..

theorem withVisit_queueNotice (v : Visit) (n : Notice) : (withVisit s l v).queueNotice n = withVisit (s.queueNotice n) l v := by
  rw [withVisit, queueNotice_setLane, withVisit, queueNotice_lane]
end WithVisitMore

/-- A visit whose lookup, if one is outstanding, has ended. -/
def notLooking (v : Visit) : Visit :=
  { v with lookup := none, matchState := if v.matchState = .looking then .waiting else v.matchState }

theorem endLookup_eq (hv : s.visit l = some v) : s.endLookup l = withVisit s l (notLooking v) := modVisit_withVisit hv _

/-- The visit as a match is tried: its ID settle timer has ended too (R29). -/
def matching (v : Visit) : Visit := { notLooking v with idSettle := none }

/-- An evaluation without override takes the outcome found (R116). -/
theorem take_outcome {c : Check} (h : c.override = none) (o : Outcome) : (c.take o).outcome = o := by
  unfold Check.take
  rw [h]
  dsimp only
  split
  · assumption
  · rfl

theorem take_override (c : Check) (o : Outcome) : (c.take o).override = c.override := by
  unfold Check.take
  split <;> split <;> simp_all

/-- A visit whose search has failed at a check. -/
structure FailedAt (v : Visit) (c : CheckName) (o : Outcome) (refused : Option Nat) (w : Visit) : Prop where
  number : w.number = v.number
  matchState : w.matchState = .failed
  lookup : w.lookup = none
  refused : w.refused = refused
  outcome : (w.checks.get c).outcome = o
  override : (w.checks.get c).override = none

/-- The end of a lookup and of the ID settle timer leave what a failure shows. -/
theorem FailedAt.of_matching {c : CheckName} {o : Outcome} {refused : Option Nat}
    (h : FailedAt (matching v) c o refused w) : FailedAt v c o refused w :=
  ⟨h.number, h.matchState, h.lookup, h.refused, h.outcome, h.override⟩

/-- The check is under no override, and the kind is not waived for it. -/
def Fresh (v : Visit) (c : CheckName) (k : ExcKind) : Prop :=
  (v.checks.get c).override = none ∧ (v.checks.get c).waives k = false

theorem failedAt_evaluate {c : CheckName} {o : Outcome} {ms : List Move} {refused : Option Nat} {y : Visit}
    (hn : y.number = v.number) (hm : y.matchState = .failed) (hl : y.lookup = none) (hr : y.refused = refused)
    (hd : y.verdict = none) (ho : (y.checks.get c).override = none) (he : outcomeNow y ms c false = o) :
    FailedAt v c o refused (y.evaluate ms c false) := by
  have h : y.evaluate ms c false = { y with checks := y.checks.set c ((y.checks.get c).take o) } := by
    rw [Visit.evaluate, hd, he]; rfl
  rw [h]
  refine ⟨hn, hm, hl, hr, ?_, ?_⟩
  · rw [Checks.get_set_same, take_outcome ho]
  · rw [Checks.get_set_same, take_override, ho]

/-- BOOKING_IN_USE is raised for a visit whose BOOKING check stands at it (R30, R79). -/
theorem bookingInUse_raises (hv : s.visit l = some v) (hd : v.verdict = none) (hf : Fresh v .booking .bookingInUse)
    (h : LaneNo) : ∃ w, FailedAt v .booking .bookingInUse v.refused w ∧ s.bookingInUse l h =
      (((withVisit s l w).raiseVisit .bookingInUse l none (laneNumber h)).1).searchFailed l := by
  let y := { notLooking v with matchState := .failed, lastBooking := .bookingInUse }
  refine ⟨y.evaluate ((withVisit s l y).claimedMoves l) .booking false, failedAt_evaluate rfl rfl rfl rfl hd hf.1 ?_, ?_⟩
  · show searchEval v.checks.booking _ _ _ = _
    exact if_neg (Bool.not_eq_true _ ▸ hf.2)
  · rw [State.bookingInUse, endLookup_eq hv, State.setMatch, State.bookingEvent, modVisit_of_withVisit, modVisit_of_withVisit,
      evaluate_of_withVisit]

/-- WINDOW_LATE_FULL is raised for a visit whose TIMELINESS check stands at it (R22, R30). -/
theorem windowLateFull_raises (hv : s.visit l = some v) (hd : v.verdict = none) (hf : Fresh v .timeliness .windowLateFull)
    (n d : Nat) : ∃ w, FailedAt v .timeliness .windowLateFull (some n) w ∧ s.windowLateFull l n d =
      (((withVisit s l w).raiseVisit .windowLateFull l none d).1).searchFailed l := by
  let y := { notLooking v with refused := some n, matchState := .failed, lastTimeliness := .windowLateFull }
  refine ⟨y.evaluate ((withVisit s l y).claimedMoves l) .timeliness false, failedAt_evaluate rfl rfl rfl rfl hd hf.1 ?_, ?_⟩
  · show searchEval v.checks.timeliness _ _ _ = _
    exact if_neg (Bool.not_eq_true _ ▸ hf.2)
  · rw [State.windowLateFull, endLookup_eq hv, State.timelinessEvent, modVisit_of_withVisit, modVisit_of_withVisit,
      evaluate_of_withVisit]

/-- A failed search by its response (R31): the lane held, or the verdict attempted from the part with the failure recorded. -/
def SearchFails (s : State) (l : LaneNo) (v : Visit) (t : State) (k : ExcKind) (c : CheckName) (o : Outcome) (detail : Nat)
    (refused : Option Nat) : Prop :=
  let entry (r : Response) (st : EntryState) : Entry := searchEntry s l v.number k detail r st none
  let shown (u : State) : Prop := u.book = s.book ∧
    (u.visit l).map (fun w => (w.number, w.matchState, (w.checks.get c).outcome, w.refused, w.lookup)) =
      some (v.number, .failed, o, refused, none)
  (s.store.work.response k = .hold → shown t ∧ (t.lane l).state = .trouble ∧ (t.lane l).interrupted = some (s.lane l).state ∧
    (t.lane l).lamp = .red ∧ t.exc.entries.getLast? = some (entry .hold .opened)) ∧
  (s.store.work.response k = .note → ∃ u : State, t = u.attempt l ∧ shown u ∧ (u.lane l).state = (s.lane l).state ∧
    u.exc.entries = s.exc.entries ++ [entry .note .logged]) ∧
  (s.store.work.response k = .silent → ∃ u : State, t = u.attempt l ∧ shown u ∧ (u.lane l).state = (s.lane l).state ∧
    u.exc = s.exc)

theorem searchFails_of_raise {k : ExcKind} {c : CheckName} {o : Outcome} {refused : Option Nat} (hk : SearchKind k c)
    (hst : Stores s) (hc : (s.lane l).state ≠ .closed) (ht : (s.lane l).state ≠ .trouble) (hw : FailedAt v c o refused w)
    (detail : Nat) :
    SearchFails s l v (((withVisit s l w).raiseVisit k l none detail).1.searchFailed l) k c o detail refused := by
  obtain ⟨hn, hm, hlk, hrf, hout, ho⟩ := hw
  unfold SearchFails State.searchFailed
  rw [← hn]
  refine ⟨fun hr => ?_, fun hr => ?_, fun hr => ?_⟩
  · obtain ⟨t, he, h⟩ := search_holds hk ho hst detail hc ht (by simp [hr])
    rw [he, attempt_of_trouble h.state]
    exact ⟨⟨h.book, by rw [h.visit]; simp [stilled, hrf, hout]⟩, h.state, h.interrupted, h.lamp, h.entries⟩
  · obtain ⟨t, he, h, hx⟩ := search_noted hk ho hst detail hr
    exact ⟨t.setMatch l .failed, by rw [he], ⟨h.book, by rw [h.visit]; simp [hrf, hout, hlk]⟩, h.state, hx⟩
  · exact ⟨(withVisit s l w).setMatch l .failed, by rw [search_silent hk detail hr],
      ⟨by simp [State.setMatch], by simp [State.setMatch, hrf, hout, hlk]⟩, by simp [setMatch_lane], by simp [State.setMatch]⟩

/-- A lane that searches is neither CLOSED nor in TROUBLE. -/
theorem searching_open (h : (s.lane l).state = .arriving ∨ (s.lane l).state = .awaitingHost) :
    (s.lane l).state ≠ .closed ∧ (s.lane l).state ≠ .trouble := by
  rcases h with h | h <;> rw [h] <;> decide

/-- What a match does with its candidate (R30). -/
def matched (s : State) (l : LaneNo) : Option Booking → State
  | none => s.noCandidate l
  | some k =>
    match k.state, k.claim with
    | .inLane, some (holder, _) => s.bookingInUse l holder
    | _, _ => s.claimBooking l k.number

theorem tryMatch_eq (hv : s.visit l = some v) (h : (s.lane l).state = .arriving ∨ (s.lane l).state = .awaitingHost) :
    s.tryMatch l = matched (withVisit s l (matching v)) l (candidate s.book s.clock.minute v) := by
  have h1 : (s.endLookup l).modVisit l (fun v => { v with idSettle := none }) = withVisit s l (matching v) := by
    rw [endLookup_eq hv, modVisit_of_withVisit]; rfl
  unfold State.tryMatch
  rcases h with h | h <;> rw [h, hv] <;> simp only [h1, withVisit_book, withVisit_clock] <;>
    cases candidate s.book s.clock.minute v <;> rfl

/-- The visit with its lookup sent, its abandon timer running with the entry clear (R32, R39). -/
def lookingVisit (s : State) (l : LaneNo) (v : Visit) : Visit := { v with
  matchState := .looking, lookup := some s.store.work.lookup
  abandon := if s.input l .arrival || s.input l .stop then v.abandon else some (v.abandon.getD s.store.work.abandon) }

/-- The abandon timer of the lane's visit is started where the entry is clear (R39). -/
theorem startAbandon_eq (hv : s.visit l = some v) : s.startAbandon l = withVisit s l { v with
    abandon := if s.input l .arrival || s.input l .stop then v.abandon
      else some (v.abandon.getD s.store.work.abandon) } := by
  unfold State.startAbandon
  rw [entryClear_iff, entryTaken]
  cases s.input l .arrival || s.input l .stop
  · exact modVisit_withVisit hv _
  · have hl : (s.lane l).visit = some v := hv
    simp only [Bool.not_true, Bool.false_eq_true, if_false, if_true]
    rw [withVisit, ← hl, setLane_self]

theorem lookupSent_notice (l : LaneNo) (n : Nat) : laneStateNotice l .arriving .awaitingHost n .lookupSent =
    ⟨.laneState, laneField l ++ [2, 3] ++ u16 n ++ [0, 3]⟩ := by
  simp only [laneStateNotice, optField, u8, List.append_assoc, List.cons_append, List.nil_append]
  rfl

/-- A match without a candidate sends its LOOKUP and stands in AWAITING_HOST (R30, R32). -/
theorem noCandidate_eq (v : Visit) (h : (s.lane l).state = .arriving ∨ (s.lane l).state = .awaitingHost) :
    (withVisit s l v).noCandidate l =
      (let n1 := s.queueNotice (lookupNotice l v)
        if (s.lane l).state = .arriving then
          n1.queueNotice ⟨.laneState, laneField l ++ [2, 3] ++ u16 v.number ++ [0, 3]⟩ else n1).setLane l
        { s.lane l with state := .awaitingHost, visit := some (lookingVisit s l v) } := by
  have hsend : (withVisit s l v).sendLookup l = withVisit (s.queueNotice (lookupNotice l v)) l
      { v with matchState := .looking, lookup := some s.store.work.lookup } := by
    rw [State.sendLookup, withVisit_visit]
    dsimp only
    rw [withVisit_queueNotice, modVisit_of_withVisit, withVisit_store]
  rw [State.noCandidate, hsend, startAbandon_eq (by rw [State.visit, changeLane_lane, withVisit_lane])]
  simp only [withVisit, changeLane_lane, changeLane_store, State.input, State.setLane_lane, State.setLane_store,
    queueNotice_lane, queueNotice_store]
  unfold State.changeLane
  rcases h with h | h
  · simp only [State.setLane_lane, h, modLane_eq, setLane_setLane, queueNotice_setLane, reduceCtorEq, if_false, if_true,
      lookupSent_notice]
    rfl
  · simp only [State.setLane_lane, h, setLane_setLane, reduceCtorEq, if_false, if_true]
    rfl

end Sys2Proof.Machine.VisitLaws

open Sys2Proof Sys2Proof.Machine Sys2Proof.Machine.VisitLaws in
/-- Settles O31: the match told by its candidate, each failure by its raise. -/
theorem matchesEndInResults : Obligations.MatchesEndInResults := by
  intro s l v hv x stores fresh fails hx
  obtain ⟨hc, ht⟩ := searching_open hx
  have htry := tryMatch_eq hv hx
  have hn := visitNumber_of_visit hv
  refine ⟨fun hnone => ?_, fun k hk hks => ?_, fun hd hst => ⟨fun hf => ⟨fun k h m hk hks hkc => ?_, fun n h m hcl => ?_⟩,
    fun hf n w hcl => ?_⟩⟩
  · rw [htry, hnone]
    exact noCandidate_eq _ hx
  · rw [htry, hk, matched]
    rcases hks with hks | hks <;> rw [hks] <;> rfl
  · obtain ⟨w, hw, he⟩ := bookingInUse_raises (withVisit_visit s l (matching v)) (v := matching v) hd hf h
    rw [htry, hk, matched, hks, hkc]
    rw [withVisit_withVisit] at he
    refine Eq.subst (motive := fun t => fails t .bookingInUse .booking .bookingInUse (laneNumber h) v.refused) he.symm ?_
    exact searchFails_of_raise (.inl ⟨rfl, rfl⟩) hst hc ht hw.of_matching _
  · obtain ⟨w, hw, he⟩ := bookingInUse_raises hv hd hf h
    have hs : s.claimBooking l n = s.bookingInUse l h := by rw [State.claimBooking, hn, hcl]
    exact hs ▸ he ▸ searchFails_of_raise (.inl ⟨rfl, rfl⟩) hst hc ht hw _
  · obtain ⟨y, hy, he⟩ := windowLateFull_raises hv hd hf n w
    have hs : s.claimBooking l n = s.windowLateFull l n w := by rw [State.claimBooking, hn, hcl]
    exact hs ▸ he ▸ searchFails_of_raise (.inr (.inl ⟨rfl, rfl⟩)) hst hc ht hy _
end

section
/-! SUPPORT. O32: what NO_BOOKING does to the visit, raised first and reported again as a failure of its step (R31, R35, R160). -/

namespace Sys2Proof.Machine.VisitLaws

variable {s t : State} {l : LaneNo} {v w : Visit}

/-! ### The entry of NO_BOOKING that stands under RETRY -/

/-- The test for a visit's NO_BOOKING entry that stands OPEN under RETRY. -/
def searchEntryOf (l : LaneNo) (n : Nat) (e : Entry) : Bool :=
  e.kind == .noBooking && e.lane == some l && e.visit == some n && e.pos == none && e.state == .opened && e.response == .retry

theorem searchEntryOf_iff (l : LaneNo) (n : Nat) (e : Entry) : searchEntryOf l n e = true ↔
    e.retrying = true ∧ e.kind = .noBooking ∧ e.lane = some l ∧ e.visit = some n ∧ e.pos = none := by
  simp only [searchEntryOf, Entry.retrying, Bool.and_eq_true, beq_iff_eq]
  tauto

theorem retryEntry_search (hv : s.visit l = some v) :
    s.retryEntry .noBooking l none = (s.exc.entries.find? (searchEntryOf l v.number)).map (·.number) := by
  have hp : (fun e : Entry => e.retrying && e.kind == .noBooking && e.lane == some l &&
      e.visit == (s.visit l).map (·.number) && e.pos == none) = searchEntryOf l v.number := by
    funext e
    rw [Bool.eq_iff_iff, searchEntryOf_iff, hv]
    simp [and_assoc]
  rw [State.retryEntry, hp]

/-! ### The visit as NO_BOOKING finds it -/

/-- The visit's search has come to NO_BOOKING: BOOKING stands at it, and no lookup is outstanding (R31, R117). -/
structure Unbooked (v w : Visit) : Prop where
  number : w.number = v.number
  matchState : w.matchState = if v.matchState = .looking then .waiting else v.matchState
  lookup : w.lookup = none
  outcome : w.checks.booking.outcome = .noBooking
  override : w.checks.booking.override = none
  retried : w.searchRetried = v.searchRetried

/-- The search ended and BOOKING evaluated. -/
theorem unbooked_of_event (hv : s.visit l = some v) (hd : v.verdict = none) (ho : v.checks.booking.override = none)
    (hw : v.checks.booking.waives .noBooking = false) :
    ∃ w, Unbooked v w ∧ (s.endLookup l).bookingEvent l .noBooking = withVisit s l w := by
  let y := { notLooking v with lastBooking := .noBooking }
  have he : ∀ ms, y.evaluate ms .booking false =
      { y with checks := y.checks.set .booking (v.checks.booking.take .noBooking) } := by
    intro ms
    have hout : outcomeNow y ms .booking false = .noBooking := if_neg (Bool.not_eq_true _ ▸ hw)
    have hd' : y.verdict = none := hd
    rw [Visit.evaluate, hd', hout]; rfl
  refine ⟨{ y with checks := y.checks.set .booking (v.checks.booking.take .noBooking) },
    ⟨rfl, rfl, rfl, take_outcome ho _, (take_override _ _).trans ho, rfl⟩, ?_⟩
  rw [endLookup_eq hv, State.bookingEvent, modVisit_of_withVisit, evaluate_of_withVisit, he]

/-- What the first NO_BOOKING does with the answer to its raise (R31). -/
def raisedSearch (l : LaneNo) (r : State × Answer) : State :=
  match r.2 with
  | .openRetry => r.1.modVisit l fun v => { v with searchRetried := true }
  | .openHold => r.1.setMatch l .failed
  | _ => r.1.searchFailed l

/-- What a further NO_BOOKING does with the report of its failure (R35, R160). -/
def failedAgain (l : LaneNo) (r : State × FailResult) : State :=
  if r.2 = .escalated then r.1.setMatch l .failed else r.1

theorem noBooking_first {d : Nat} (he : (s.endLookup l).bookingEvent l .noBooking = withVisit s l w)
    (hr : w.searchRetried = false) :
    s.noBooking l d = raisedSearch l ((withVisit s l w).raiseVisit .noBooking l none d) := by
  simp only [State.noBooking, he, withVisit_visit, Option.any_some, hr]
  rfl

theorem noBooking_again {d : Nat} (he : (s.endLookup l).bookingEvent l .noBooking = withVisit s l w)
    (hr : w.searchRetried = true) : s.noBooking l d =
      match (s.exc.entries.find? (searchEntryOf l w.number)).map (·.number) with
      | some n => failedAgain l ((withVisit s l w).reportFailure n)
      | none => withVisit s l w := by
  simp only [State.noBooking, he, withVisit_visit, Option.any_some, hr, retryEntry_search (withVisit_visit s l w), withVisit_exc]
  rfl

/-! ### A failure reported (R160) -/

theorem withVisit_bounds (hb : Bounds s) (l : LaneNo) (v : Visit) : Bounds (withVisit s l v) :=
  (Act.setLane (.refl hb) l { s.lane l with visit := some v }).bounds

theorem reportFailure_below {e : Entry} (he : s.entry e.number = some e) (hr : e.retrying = true)
    (hl : min 7 (e.retries + 1) < s.store.work.limit e.kind) : s.reportFailure e.number =
      (s.modEntry e.number fun x => { x with retries := min 7 (e.retries + 1), left := s.retryStart e.lane }, .retrying) := by
  simp only [State.reportFailure, he, hr, if_true, if_neg (Nat.not_le.mpr hl)]

/-- The entry escalated in place. -/
def escalated (e : Entry) : Entry := { e with retries := min 7 (e.retries + 1), response := .hold, left := none }

theorem reportFailure_at {e : Entry} (he : s.entry e.number = some e) (hr : e.retrying = true) (hlane : e.lane = some l)
    (hl : s.store.work.limit e.kind ≤ min 7 (e.retries + 1)) : s.reportFailure e.number =
      (((s.modEntry e.number fun _ => escalated e).queueNotice (exceptionNotice (escalated e) true)).enterTrouble l,
        .escalated) := by
  simp only [State.reportFailure, he, hr, if_true, if_pos hl, escalated, hlane]

/-- A failure that escalates the search's entry: the lane is in TROUBLE, the entry a HOLD. -/
theorem search_escalates {e : Entry} (he : e ∈ s.exc.entries) (hlane : e.lane = some l) (hc : (s.lane l).state ≠ .closed)
    (ht : (s.lane l).state ≠ .trouble) :
    let S := ((withVisit s l w).modEntry e.number fun _ => escalated e).queueNotice (exceptionNotice (escalated e) true)
    let t := (S.enterTrouble l).setMatch l .failed
    (t.lane l).state = .trouble ∧ (t.lane l).interrupted = some (s.lane l).state ∧ (t.lane l).lamp = .red ∧
      t.visit l = some { stilled w with matchState := .failed } ∧ t.book = s.book ∧ escalated e ∈ t.exc.entries := by
  intro S t
  have hS : S.lane l = { s.lane l with visit := some w } := by
    simp only [S, queueNotice_lane]
    exact withVisit_lane ..
  have h := enterTrouble_shows (s := S) (l := l) (by rw [hS]; exact hc) (by rw [hS]; exact ht)
  have hx : t.exc = (S.enterTrouble l).exc := rfl
  refine ⟨?_, ?_, ?_, ?_, ?_, ?_⟩
  · rw [setMatch_lane]; exact h.state
  · rw [setMatch_lane]; exact h.interrupted.trans (by rw [hS])
  · rw [setMatch_lane]; exact h.lamp
  · have hv : S.visit l = some w := by rw [State.visit, hS]
    exact (State.modVisit_visit ..).trans (by rw [h.visit, hv]; rfl)
  · exact h.book.trans (by simp [S])
  · have hm : escalated e ∈ S.exc.entries := by
      simp only [S, queueNotice_exc, State.modEntry, withVisit_exc, List.mem_map]
      exact ⟨e, he, if_pos rfl⟩
    rw [hx, h.entries, List.mem_map]
    exact ⟨_, hm, by simp [escalated, hlane]⟩

/-! ### NO_BOOKING (R31, R35) -/

/-- What the visit shows once NO_BOOKING has been dealt with. -/
def SearchShows (s : State) (l : LaneNo) (v : Visit) (u : State) (m : MatchState) (retried : Bool) : Prop := u.book = s.book ∧
  (u.visit l).map (fun y => (y.number, y.matchState, y.lookup, y.checks.booking.outcome, y.searchRetried)) =
    some (v.number, m, none, .noBooking, retried)

theorem Unbooked.shows (h : Unbooked v w) {u y : _} {m : MatchState} {r : Bool} (hu : State.book u = s.book)
    (hy : u.visit l = some y) (hn : y.number = w.number) (hm : y.matchState = m) (hl : y.lookup = none)
    (hc : y.checks = w.checks) (hr : y.searchRetried = r) : SearchShows s l v u m r :=
  ⟨hu, by rw [hy, Option.map_some, hn, hm, hl, hc, hr, h.number, h.outcome]⟩

/-- The lane is held in TROUBLE, its state interrupted. -/
def HeldIn (s : State) (l : LaneNo) (t : State) : Prop :=
  (t.lane l).state = .trouble ∧ (t.lane l).interrupted = some (s.lane l).state ∧ (t.lane l).lamp = .red

section NoBooking
variable (hw : Unbooked v w) (he : (s.endLookup l).bookingEvent l .noBooking = withVisit s l w) (d : Nat)
include hw he

section First
variable (hr : v.searchRetried = false) (hst : Stores s)
include hr hst

theorem noBooking_retries (ht : (s.lane l).state ≠ .trouble) (hresp : s.store.work.response .noBooking = .retry)
    (hlim : s.store.work.limit .noBooking ≠ 0) :
    SearchShows s l v (s.noBooking l d) (if v.matchState = .looking then .waiting else v.matchState) true ∧
      ((s.noBooking l d).lane l).state = (s.lane l).state ∧ (s.noBooking l d).exc.entries = s.exc.entries ++
        [searchEntry s l v.number .noBooking d .retry .opened (some s.store.work.retryInterval)] := by
  obtain ⟨t, hrt, hl, hb, hx⟩ := search_retried (.inr (.inr ⟨rfl, rfl⟩)) hw.override hst d ht hresp hlim
  have hvt : t.visit l = some w := by rw [State.visit, hl]
  rw [noBooking_first he (hw.retried.trans hr), hrt, ← hw.number]
  refine ⟨hw.shows hb (y := { w with searchRetried := true }) ?_ rfl hw.matchState hw.lookup rfl rfl, ?_, hx⟩
  · exact (State.modVisit_visit ..).trans (by rw [hvt]; rfl)
  · simp [raisedSearch, hl]

theorem noBooking_holds (hc : (s.lane l).state ≠ .closed) (ht : (s.lane l).state ≠ .trouble)
    (hresp : s.store.work.response .noBooking = .hold ∨
      s.store.work.response .noBooking = .retry ∧ s.store.work.limit .noBooking = 0) :
    SearchShows s l v (s.noBooking l d) .failed false ∧ HeldIn s l (s.noBooking l d) ∧
      (s.noBooking l d).exc.entries.getLast? = some (searchEntry s l v.number .noBooking d .hold .opened none) := by
  obtain ⟨t, hrt, h⟩ := search_holds (.inr (.inr ⟨rfl, rfl⟩)) hw.override hst d hc ht
    (by rcases hresp with hresp | ⟨hresp, hlim⟩ <;> simp [*])
  rw [noBooking_first he (hw.retried.trans hr), hrt, ← hw.number]
  exact ⟨hw.shows h.book h.visit rfl rfl rfl rfl (hw.retried.trans hr), ⟨h.state, h.interrupted, h.lamp⟩, h.entries⟩

theorem noBooking_notes (hresp : s.store.work.response .noBooking = .note) : ∃ u : State, s.noBooking l d = u.attempt l ∧
    SearchShows s l v u .failed false ∧ (u.lane l).state = (s.lane l).state ∧
    u.exc.entries = s.exc.entries ++ [searchEntry s l v.number .noBooking d .note .logged none] := by
  obtain ⟨t, hrt, h, hx⟩ := search_noted (.inr (.inr ⟨rfl, rfl⟩)) hw.override hst d hresp
  rw [noBooking_first he (hw.retried.trans hr), hrt, ← hw.number]
  exact ⟨t.setMatch l .failed, rfl, hw.shows h.book h.visit rfl rfl hw.lookup rfl (hw.retried.trans hr), h.state, hx⟩
end First

section Again
variable (hr : v.searchRetried = true)
include hr

theorem noBooking_nothing (hn : s.exc.entries.find? (searchEntryOf l v.number) = none) :
    SearchShows s l v (s.noBooking l d) (if v.matchState = .looking then .waiting else v.matchState) true ∧
      ((s.noBooking l d).lane l).state = (s.lane l).state ∧ (s.noBooking l d).exc = s.exc := by
  rw [noBooking_again he (hw.retried.trans hr), hw.number, hn]
  exact ⟨hw.shows (withVisit_book ..) (withVisit_visit ..) rfl hw.matchState hw.lookup rfl (hw.retried.trans hr), by simp,
    by simp⟩

variable (hb : Bounds s) {e : Entry} (hn : s.exc.entries.find? (searchEntryOf l v.number) = some e)
include hb hn

theorem noBooking_counts (ht : (s.lane l).state ≠ .trouble)
    (hlim : min 7 (e.retries + 1) < s.store.work.limit .noBooking) :
    SearchShows s l v (s.noBooking l d) (if v.matchState = .looking then .waiting else v.matchState) true ∧
      ((s.noBooking l d).lane l).state = (s.lane l).state ∧
      (s.noBooking l d).exc.entries = s.exc.entries.map fun z => if z.number = e.number then
        { z with retries := min 7 (e.retries + 1), left := some s.store.work.retryInterval } else z := by
  obtain ⟨hret, hkind, hlane, -, -⟩ := (searchEntryOf_iff ..).mp (List.find?_some hn)
  have hentry := (withVisit_bounds hb l w).entry_find (p := searchEntryOf l v.number) (by rwa [withVisit_exc])
  rw [noBooking_again he (hw.retried.trans hr), hw.number, hn]
  simp only [Option.map_some, reportFailure_below hentry hret (by rwa [hkind, withVisit_store])]
  refine ⟨hw.shows (y := w) (withVisit_book s l w :) (withVisit_visit s l w :) rfl hw.matchState hw.lookup rfl (hw.retried.trans hr),
    (congrArg Lane.state (withVisit_lane s l w) :), ?_⟩
  simp [failedAgain, State.modEntry, State.retryStart, hlane, ht]

theorem noBooking_escalates (hc : (s.lane l).state ≠ .closed) (ht : (s.lane l).state ≠ .trouble)
    (hlim : s.store.work.limit .noBooking ≤ min 7 (e.retries + 1)) :
    SearchShows s l v (s.noBooking l d) .failed true ∧ HeldIn s l (s.noBooking l d) ∧
      escalated e ∈ (s.noBooking l d).exc.entries := by
  obtain ⟨hret, hkind, hlane, -, -⟩ := (searchEntryOf_iff ..).mp (List.find?_some hn)
  have hentry := (withVisit_bounds hb l w).entry_find (p := searchEntryOf l v.number) (by rwa [withVisit_exc])
  rw [noBooking_again he (hw.retried.trans hr), hw.number, hn]
  simp only [Option.map_some, reportFailure_at hentry hret hlane (by rwa [hkind, withVisit_store])]
  obtain ⟨hs, hi, hlamp, hv, hbk, hm⟩ := search_escalates (w := w) (List.mem_of_find?_eq_some hn) hlane hc ht
  exact ⟨hw.shows hbk hv rfl rfl rfl rfl (hw.retried.trans hr), ⟨hs, hi, hlamp⟩, hm⟩
end Again
end NoBooking

end Sys2Proof.Machine.VisitLaws
end

section
/-! SUPPORT. O32: what stands of a claim through the rest of its steps. `Stands` says what the lane, the books and the cleared entry
keep; each operation of those steps keeps it. -/

namespace Sys2Proof.Machine.VisitLaws

variable {s t u : State} {l : LaneNo} {v w y : Visit}

/-! ### What stands of a claim -/

/-- What the claim has told the visit: its number, the booking and its class, the refused number, the outcomes of BOOKING and
TIMELINESS. -/
def told (y : Visit) : Nat × Option Nat × Option Timeliness × Option Nat × Outcome × Outcome :=
  (y.number, y.claimed, y.timeliness, y.refused, y.checks.booking.outcome, y.checks.timeliness.outcome)

/-- The search of the visit: its match state and timers. -/
def searchOf (y : Visit) : MatchState × Option Nat × Option Nat := (y.matchState, y.lookup, y.idSettle)

/-- The search is over with the claim. -/
def searchOver : MatchState × Option Nat × Option Nat := (.claimed, none, none)

/-- The two waits of the visit. -/
def waitsOf (y : Visit) : Option Nat × Option Nat := (y.sealWait, y.surveyWait)

/-- Where the boxes and moves of a visit stand. -/
structure Seating where
  front : Option Text
  rear : Option Text
  spanning : Bool
  frontMove : Option (Nat × Basis)
  rearMove : Option (Nat × Basis)
  unplaced : List SeenSeal

def seating (y : Visit) : Seating :=
  ⟨y.front.cid, y.rear.cid, y.rear.spanning, y.front.sealPart.move, y.rear.sealPart.move, y.unplaced⟩

/-- A claim as it stands: the books, what it told the visit, the waits, the number of the NO_BOOKING entry that it cleared, and the
seating once the moves have been found. -/
structure ClaimMade where
  book : BookUnit
  told : Nat × Option Nat × Option Timeliness × Option Nat × Outcome × Outcome
  waits : Option Nat × Option Nat
  entry : Option Nat
  seat : Option Seating

/-- The visit shows the claim. -/
structure Shows (C : ClaimMade) (y : Visit) : Prop where
  told : told y = C.told
  search : searchOf y = searchOver
  seat : ∀ z, C.seat = some z → seating y = z

/-- The lane goes on from CHECKING with the claim, the waits running there. -/
structure LaneShows (C : ClaimMade) (x : Lane) : Prop where
  state : x.state = .checking ∨ x.state = .decided ∨ x.state = .exiting ∨ x.state = .trouble
  visit : ∃ y, x.visit = some y ∧ Shows C y ∧ (x.state = .checking → waitsOf y = C.waits)

/-- The entry of a number is past, cleared, and no later one takes its number. -/
def Settled (n : Option Nat) (x : ExcTable) : Prop :=
  ∀ k, n = some k → k < x.next ∧ ∀ d ∈ x.entries, d.number = k → d.state = .resolved ∧ d.outcome = some .cleared

structure Stands (l : LaneNo) (C : ClaimMade) (t : State) : Prop where
  book : t.book = C.book
  lane : LaneShows C (t.lane l)
  entry : Settled C.entry t.exc

variable {C D : ClaimMade}

/-! ### Visits that show the same claim -/

/-- A change of the visit that the claim does not see. -/
structure Unseen (C : ClaimMade) (y z : Visit) : Prop where
  told : told z = told y
  search : searchOf z = searchOf y
  waits : waitsOf z = waitsOf y
  seat : C.seat = none ∨ seating z = seating y

theorem Shows.unseen {z : Visit} (h : Shows C y) (k : Unseen C y z) : Shows C z where
  told := k.told.trans h.told
  search := k.search.trans h.search
  seat q hq := by
    rcases k.seat with hs | hs
    · rw [hq] at hs; cases hs
    · exact hs.trans (h.seat q hq)

theorem LaneShows.modVisit {x : Lane} (h : LaneShows C x) {f : Visit → Visit} (hf : ∀ y, Unseen C y (f y)) :
    LaneShows C (x.modVisit f) := by
  obtain ⟨y, hy, hs, hw⟩ := h.visit
  exact ⟨h.state, f y, by simp [hy], hs.unseen (hf y), fun hc => (hf y).waits.trans (hw hc)⟩

/-- An evaluation of a check other than the two of the search is not seen. -/
theorem unseen_evaluate (y : Visit) (ms : List Move) {n : CheckName} (hn : n ≠ .booking ∧ n ≠ .timeliness) (a : Bool) :
    Unseen C y (y.evaluate ms n a) := by
  have hk : ∀ k : Check, told { y with checks := y.checks.set n k } = told y := by
    intro k
    obtain ⟨h1, h2⟩ := hn
    cases n
    case booking => exact absurd rfl h1
    case timeliness => exact absurd rfl h2
    all_goals rfl
  unfold Visit.evaluate
  split
  · exact ⟨rfl, rfl, rfl, .inr rfl⟩
  · exact ⟨hk _, rfl, rfl, .inr rfl⟩

/-- A change of a position that keeps its ID, its span and its move is not seen. -/
theorem unseen_setPos (y : Visit) (p : Pos) {r : PosRec} (hc : r.cid = (y.pos p).cid) (hs : r.spanning = (y.pos p).spanning)
    (hm : r.sealPart.move = (y.pos p).sealPart.move) : Unseen C y (y.setPos p r) := by
  cases p
  · refine ⟨rfl, rfl, rfl, .inr ?_⟩
    show Seating.mk r.cid _ _ r.sealPart.move _ _ = _
    rw [hc, hm]; rfl
  · refine ⟨rfl, rfl, rfl, .inr ?_⟩
    show Seating.mk _ r.cid r.spanning _ r.sealPart.move _ = _
    rw [hc, hs, hm]; rfl

/-! ### The cleared entry -/

theorem Settled.map {n : Option Nat} {x z : ExcTable} (h : Settled n x) (f : Entry → Entry)
    (hf : ∀ e, (f e).number = e.number ∧ (e.state = .resolved → e.outcome = some .cleared →
      (f e).state = .resolved ∧ (f e).outcome = some .cleared))
    (hz : z.entries = x.entries.map f) (hn : z.next = x.next) : Settled n z := by
  intro k hk
  obtain ⟨hlt, hall⟩ := h k hk
  refine ⟨hn ▸ hlt, fun d hd hdk => ?_⟩
  rw [hz, List.mem_map] at hd
  obtain ⟨e, he, rfl⟩ := hd
  obtain ⟨h1, h2⟩ := hall e he ((hf e).1 ▸ hdk)
  exact (hf e).2 h1 h2

/-- A table that stores a new entry in its room. -/
theorem Settled.store {n : Option Nat} {x z : ExcTable} (h : Settled n x) {es : List Entry} {e : Entry}
    (hs : ∀ d ∈ es, d ∈ x.entries) (he : e.number = x.next) (hz : z.entries = es ++ [e]) (hn : z.next = x.next + 1) :
    Settled n z := by
  intro k hk
  obtain ⟨hlt, hall⟩ := h k hk
  refine ⟨hn ▸ Nat.lt_succ_of_lt hlt, fun d hd hdk => ?_⟩
  rw [hz, List.mem_append, List.mem_singleton] at hd
  rcases hd with hd | rfl
  · exact hall d (hs d hd) hdk
  · omega

theorem room_subset {x : ExcTable} {es : List Entry} {b : Bool} (h : x.room = some (es, b)) : ∀ d ∈ es, d ∈ x.entries := by
  unfold ExcTable.room at h
  split at h
  · cases h
  · split at h
    · cases h; exact fun _ hd => hd
    · simp only [Option.map_eq_some_iff, Prod.mk.injEq] at h
      obtain ⟨a, ha, rfl, -⟩ := h
      exact fun _ hd => (reclaimEntry_spec ha).2.subset hd

/-! ### The plain updates -/

theorem Stands.same (h : Stands l C t) (hb : u.book = t.book) (hl : u.lane l = t.lane l) (he : u.exc = t.exc) : Stands l C u :=
  ⟨hb.trans h.book, hl ▸ h.lane, he ▸ h.entry⟩

/-- The same, told of the first of a pair. -/
theorem Stands.pair {α : Type} {a : α} (h : Stands l C t) : Stands l C (t, a).1 := h

theorem Stands.queueNotice (h : Stands l C t) (n : Notice) : Stands l C (t.queueNotice n) :=
  h.same (by simp) (by simp) (by simp)

theorem Stands.setPool (h : Stands l C t) (p : BayPool) : Stands l C { t with pool := p } := h.same rfl rfl rfl

theorem Stands.setExc (h : Stands l C t) {x : ExcTable} (k : Settled C.entry x) : Stands l C { t with exc := x } :=
  ⟨h.book, h.lane, k⟩

theorem Stands.modLane (h : Stands l C t) {f : Lane → Lane} (hs : ∀ x, (f x).state = x.state) (hv : ∀ x, (f x).visit = x.visit) :
    Stands l C (t.modLane l f) := by
  refine ⟨h.book, ?_, h.entry⟩
  obtain ⟨hst, y, hy, hsh, hw⟩ := h.lane
  rw [State.modLane_lane]
  exact ⟨by rwa [hs], y, by rwa [hv], hsh, by rwa [hs]⟩

theorem Stands.modCounters (h : Stands l C t) (f : LaneCounters → LaneCounters) : Stands l C (t.modCounters l f) :=
  h.modLane (fun _ => rfl) fun _ => rfl
theorem Stands.modBarrier (h : Stands l C t) (f : Barrier → Barrier) : Stands l C (t.modBarrier l f) :=
  h.modLane (fun _ => rfl) fun _ => rfl
theorem Stands.modSign (h : Stands l C t) (f : Sign → Sign) : Stands l C (t.modSign l f) :=
  h.modLane (fun _ => rfl) fun _ => rfl

theorem Stands.modVisit (h : Stands l C t) {f : Visit → Visit} (hf : ∀ y, Unseen C y (f y) := by intro _; exact ⟨rfl, rfl, rfl, .inr rfl⟩) :
    Stands l C (t.modVisit l f) :=
  ⟨h.book, by rw [State.modVisit_lane]; exact h.lane.modVisit hf, h.entry⟩

theorem Stands.modPos (h : Stands l C t) (p : Pos) {f : PosRec → PosRec} (hc : ∀ r, (f r).cid = r.cid := by intro _; rfl)
    (hs : ∀ r, (f r).spanning = r.spanning := by intro _; rfl)
    (hm : ∀ r, (f r).sealPart.move = r.sealPart.move := by intro _; rfl) : Stands l C (t.modPos l p f) :=
  h.modVisit fun y => unseen_setPos y p (hc _) (hs _) (hm _)

theorem Stands.evaluate (h : Stands l C t) {n : CheckName} (hn : n ≠ .booking ∧ n ≠ .timeliness) (a : Bool) :
    Stands l C (t.evaluate l n a) := h.modVisit fun y => unseen_evaluate y _ hn a

theorem Stands.ite {c : Prop} [Decidable c] (h : Stands l C t) (k : Stands l C u) : Stands l C (if c then t else u) := by
  split
  · exact h
  · exact k

theorem Stands.foldl {α : Type} (f : State → α → State) (hf : ∀ t a, Stands l C t → Stands l C (f t a)) (xs : List α)
    (h : Stands l C t) : Stands l C (xs.foldl f t) := by
  induction xs generalizing t with
  | nil => exact h
  | cons x xs ih => exact ih (hf _ _ h)

/-- The lane leaves CHECKING, its visit seen as before but for the waits. -/
theorem Stands.leave (h : Stands l C t) {f : Visit → Visit} (ht : ∀ y, told (f y) = told y)
    (hs : ∀ y, searchOf y = searchOver → searchOf (f y) = searchOver) (hz : ∀ y, seating (f y) = seating y) {now : LaneState}
    (hn : now = .decided ∨ now = .exiting ∨ now = .trouble) (hb : u.book = t.book) (hu : (u.lane l).state = now)
    (hv : u.visit l = (t.visit l).map f) (he : Settled C.entry u.exc) : Stands l C u := by
  obtain ⟨y, hy, hsh, -⟩ := h.lane.visit
  have hvy : (u.lane l).visit = some (f y) := hv.trans (by rw [State.visit, hy]; rfl)
  refine ⟨hb.trans h.book, ⟨by rw [hu]; exact .inr hn, f y, hvy,
    ⟨(ht y).trans hsh.told, hs y hsh.search, fun z hz' => (hz y).trans (hsh.seat z hz')⟩, fun hc => ?_⟩, he⟩
  rw [hu] at hc
  rcases hn with rfl | rfl | rfl <;> cases hc

theorem searchOf_stilled (h : searchOf y = searchOver) : searchOf (stilled y) = searchOver := by
  have hm : y.matchState = .claimed := congrArg Prod.fst h
  simp [searchOf, stilled, searchOver, hm]

/-- A lane with a claim is in service. -/
theorem Stands.notClosed (h : Stands l C t) : (t.lane l).state ≠ .closed := by
  rcases h.lane.state with k | k | k | k <;> rw [k] <;> decide

/-! ### The Exception Table -/

theorem Stands.enterTrouble (h : Stands l C t) : Stands l C (t.enterTrouble l) := by
  by_cases hc : (t.lane l).state = .trouble
  · have hs : t.enterTrouble l = t := if_pos (.inr hc)
    rwa [hs]
  · have k := enterTrouble_shows h.notClosed hc
    refine h.leave (f := stilled) (fun _ => rfl) (fun _ => searchOf_stilled) (fun _ => rfl) (.inr (.inr rfl)) k.book k.state
      k.visit (h.entry.map _ (fun e => ?_) k.entries k.next)
    split
    · exact ⟨rfl, fun h1 h2 => ⟨h1, h2⟩⟩
    · exact ⟨rfl, fun h1 h2 => ⟨h1, h2⟩⟩

theorem Stands.loseException (h : Stands l C t) (r : Raise) (resp : Response) (ovr : Bool) (hr : r.lane = some l) :
    Stands l C (t.loseException r resp ovr) := by
  simp only [State.loseException, hr]
  split
  · exact (h.setExc (x := { t.exc with
      lost := satInc t.exc.lost, full := true, unrecorded := t.exc.unrecorded.set l true }) h.entry).enterTrouble
  · exact h.setExc (x := { t.exc with lost := satInc t.exc.lost, full := true }) h.entry

theorem Stands.raiseExc (h : Stands l C t) (r : Raise) (hr : r.lane = some l) : Stands l C (t.raiseExc r).1 := by
  simp only [State.raiseExc]
  split
  · exact h
  · split
    · exact h.loseException _ _ _ hr
    · next es left he =>
      have h2 := fun n => (h.setExc (x := { t.exc with
        entries := es ++ [t.newEntry r (t.store.work.responseOf r.kind r.action) (t.raiseOverridden r)]
        next := t.exc.next + 1, full := if left then false else t.exc.full })
        (h.entry.store (room_subset he) rfl rfl rfl)).queueNotice n
      split
      · exact h2 _
      · split
        · exact h2 _
        · exact h2 _
        · exact h2 _
        · simp only [hr]; exact (h2 _).enterTrouble

theorem Stands.raiseVisit (h : Stands l C t) (k : ExcKind) (p : Option Pos) (detail : Nat) :
    Stands l C (t.raiseVisit k l p detail).1 := h.raiseExc _ rfl

theorem Stands.reportCleared (h : Stands l C t) (n : Nat) : Stands l C (t.reportCleared n) := by
  rcases reportCleared_exc t n with hx | hx
  all_goals
    have ha := reportCleared_armTo t n l
    refine ⟨ha.beside.book.trans h.book, by rw [ha.lane]; exact h.lane, ?_⟩
    rw [hx]
  · exact h.entry
  · refine h.entry.map _ (fun e => ?_) rfl rfl
    split
    · exact ⟨rfl, fun _ _ => ⟨rfl, rfl⟩⟩
    · exact ⟨rfl, fun h1 h2 => ⟨h1, h2⟩⟩

theorem Stands.clearEntry (h : Stands l C t) (n : Option Nat) : Stands l C (t.clearEntry n) := by
  unfold State.clearEntry
  split
  · exact h.reportCleared _
  · exact h

theorem Stands.clearRetry (h : Stands l C t) (k : ExcKind) (p : Option Pos) : Stands l C (t.clearRetry k l p) := by
  unfold State.clearRetry
  split
  · exact h.reportCleared _
  · exact h

end Sys2Proof.Machine.VisitLaws
end

section
/-! SUPPORT. O32: the steps of a claim keep it standing: positions, watch, verdict, delivery. -/

namespace Sys2Proof.Machine.VisitLaws

variable {s t u : State} {l : LaneNo} {v w y : Visit} {C : ClaimMade}

/-! ### Checks of the positions -/

theorem sealCheck_other (p : Pos) : sealCheck p ≠ .booking ∧ sealCheck p ≠ .timeliness := by cases p <;> decide
theorem damageCheck_other (p : Pos) : damageCheck p ≠ .booking ∧ damageCheck p ≠ .timeliness := by cases p <;> decide
theorem idCheck_other (p : Pos) : idCheck p ≠ .booking ∧ idCheck p ≠ .timeliness := by cases p <;> decide

theorem Stands.evaluateIds (h : Stands l C t) : Stands l C (t.evaluateIds l) :=
  (h.evaluate (idCheck_other .front) _).evaluate (idCheck_other .rear) _

/-- A mark of the seal part that keeps its move. -/
theorem Stands.modSeal (h : Stands l C t) (p : Pos) {f : SealPart → SealPart} (hf : ∀ x, (f x).move = x.move := by intro _; rfl) :
    Stands l C (t.modPos l p fun r => r.modSeal f) := h.modPos p (hm := fun _ => hf _)

theorem Stands.modDamage (h : Stands l C t) (p : Pos) (f : DamagePart → DamagePart) :
    Stands l C (t.modPos l p fun r => r.modDamage f) := h.modPos p

theorem Stands.raiseSeal (h : Stands l C t) (p : Pos) (o : SealOutcome) (n : Nat) : Stands l C (t.raiseSeal l p o n) := by
  unfold State.raiseSeal
  cases o
  case mismatch => exact .ite h ((h.raiseVisit _ _ _).modSeal p)
  case unexpected => exact .ite h ((h.raiseVisit _ _ _).modSeal p)
  all_goals exact h

theorem Stands.evalSeal (h : Stands l C t) (p : Pos) (c : Bool) : Stands l C (t.evalSeal l p c) := by
  simp only [State.evalSeal]
  split
  · refine .ite h (Stands.evaluate (.ite (.clearEntry ?_ _) ?_) (sealCheck_other p) _)
    all_goals exact .ite ((h.modSeal p).raiseSeal _ _ _) (h.modSeal p)
  · exact h

theorem Stands.countDuplicate (h : Stands l C t) : Stands l C (t.countDuplicate l) := h.modCounters _

theorem Stands.raiseDamage (h : Stands l C t) (p : Pos) (was : DamageOutcome) : Stands l C (t.raiseDamage l p was) := by
  have hr : ∀ k n f, Stands l C ((t.raiseVisit k l (some p) n).1.modPos l p fun r => r.modDamage f) :=
    fun k n f => (h.raiseVisit k _ n).modDamage p f
  simp only [State.raiseDamage]
  refine .ite h ?_
  split
  · exact .ite h (hr _ _ _)
  · exact .ite h (hr _ _ _)
  · exact h

theorem Stands.gradeSurvey (h : Stands l C t) (p : Pos) (sv : Survey) : Stands l C (t.gradeSurvey l p sv) := by
  simp only [State.gradeSurvey]
  split
  · exact h
  · have h1 := fun f o => ((h.modDamage p f).raiseDamage p o).evaluate (damageCheck_other p) false
    exact .ite ((h1 _ _).clearEntry _) (h1 _ _)

theorem Stands.gradeHeld (h : Stands l C t) (p : Pos) : Stands l C (t.gradeHeld l p) := by
  simp only [State.gradeHeld]
  split
  · exact .ite (h.gradeSurvey _ _) h
  · exact h

theorem Stands.watchTest (h : Stands l C t) (i : Identity) : Stands l C (t.watchTest l i) := by
  have hw : ∀ (y : Visit) m, Unseen C y (y.setWatch i m) := by
    intro y m
    cases i
    · exact ⟨rfl, rfl, rfl, .inr rfl⟩
    · simp only [Visit.setWatch]
      split <;> exact ⟨rfl, rfl, rfl, .inr rfl⟩
    · exact ⟨rfl, rfl, rfl, .inr rfl⟩
  unfold State.watchTest
  split
  · exact h
  · split
    · split
      · exact h
      · exact ((h.raiseExc _ rfl).modVisit fun y => hw y _).evaluate (by decide) _
    · exact h

/-! ### The steps of the Identity Unit, before the moves are found -/

theorem Stands.makePos (h : Stands l C t) (p : Pos) : Stands l C (t.makePos l p) :=
  h.modPos p

theorem Stands.raiseMismatch (h : Stands l C t) (p : Pos) (n : Nat) : Stands l C (t.raiseMismatch l p n) := by
  simp only [State.raiseMismatch]
  exact .ite (h.makePos p) ((((h.makePos p).raiseVisit _ _ _).modPos p).evaluate
    (idCheck_other p) _)

theorem Stands.flagForeign (h : Stands l C t) : Stands l C (t.flagForeign l) :=
  Stands.foldl _ (fun _ _ k => .ite (k.raiseMismatch _ _) k) _ h

theorem Stands.comparePlates (h : Stands l C t) : Stands l C (t.comparePlates l) := by
  unfold State.comparePlates
  split
  · exact .ite h (h.raiseVisit _ _ _)
  · exact h

section Unseated
variable (hs : C.seat = none)
include hs

theorem Stands.spanBox (h : Stands l C t) (x : Text) : Stands l C (t.spanBox l x) := by
  have h1 : Stands l C (t.modVisit l fun v => v.span x) := h.modVisit fun y => ⟨rfl, rfl, rfl, .inl hs⟩
  have h2 := Stands.ite (c := (t.posRec l .rear).sealPart.outcome ≠ .notApplicable)
    (h1.evaluate (sealCheck_other .rear) false) h1
  exact .ite (h2.evaluate (damageCheck_other .rear) _) h2

theorem Stands.widen (h : Stands l C t) : Stands l C (t.widen l) := by
  refine Stands.foldl _ (fun t m k => ?_) _ h
  split
  · exact k
  · refine .ite k ?_
    split
    · exact k
    · exact .ite ((k.spanBox hs _).clearRetry _ _) (k.raiseMismatch _ _)
end Unseated

/-! ### Delivery -/

theorem Stands.arriveAt (h : Stands l C t) (a : Arrival) : Stands l C (t.arriveAt l a).1 := by
  rw [arriveAt_eq]
  refine .ite (Stands.modBarrier ?_ _) (h.modBarrier _)
  unfold clearFault
  split
  · exact (h.modBarrier _).reportCleared _
  · exact h.modBarrier _

theorem Stands.enterRaising (h : Stands l C t) : Stands l C (t.enterRaising l).1 := by
  simp only [State.enterRaising]
  split
  · exact (h.modBarrier _).arriveAt _
  · exact (h.modBarrier _).pair

theorem Stands.raiseArm (h : Stands l C t) : Stands l C (t.raiseArm l).1 := by
  simp only [State.raiseArm]
  split
  · exact h.enterRaising
  · exact h.enterRaising
  · exact (h.modBarrier _).pair
  · exact (h.modBarrier _).pair
  · split
    · exact (h.modBarrier _).pair
    · exact h.enterRaising

/-- A raise brings no arrival at DOWN, and leaves the lane's state. -/
theorem enterRaising_report (t : State) (l : LaneNo) :
    (t.enterRaising l).2 ≠ some .down ∧ ((t.enterRaising l).1.lane l).state = (t.lane l).state := by
  refine ⟨?_, by rw [(enterRaising_armTo t l).lane]⟩
  simp only [State.enterRaising]
  split
  · exact fun h => by cases h
  · exact fun h => by cases h

theorem raiseArm_report (t : State) (l : LaneNo) :
    (t.raiseArm l).2 ≠ some .down ∧ ((t.raiseArm l).1.lane l).state = (t.lane l).state := by
  have hm : ∀ f, ((t.modBarrier l f).lane l).state = (t.lane l).state := fun f => by
    rw [(ArmTo.modBarrier t l f).lane]
  have hn : (none : Option Arrival) ≠ some .down := fun h => by cases h
  simp only [State.raiseArm]
  split
  · exact enterRaising_report t l
  · exact enterRaising_report t l
  · exact ⟨hn, hm _⟩
  · exact ⟨hn, hm _⟩
  · split
    · exact ⟨hn, hm _⟩
    · exact enterRaising_report t l

theorem Stands.enterExiting (h : Stands l C t) : Stands l C (t.enterExiting l) := by
  refine h.leave (f := id) (fun _ => rfl) (fun _ => id) (fun _ => rfl) (.inr (.inl rfl)) ?_ ?_ ?_ ?_
  · simp [State.enterExiting]
  · rw [State.enterExiting, changeLane_lane]
  · rw [State.enterExiting, State.visit, changeLane_lane, State.modLane_lane, Option.map_id]; rfl
  · rw [State.enterExiting, changeLane_exc]; exact h.entry

/-- The report of UP in a lane that is not EXITING. -/
theorem Stands.onUp (h : Stands l C t) (hx : (t.lane l).state ≠ .exiting) : Stands l C (t.onUp l) := by
  unfold State.onUp
  split
  · exact .ite h.enterExiting h
  · next he _ => exact absurd he hx
  · exact h

/-- A raise of the barrier in DECIDED with the lane's act on its arrival. -/
theorem Stands.raised (h : Stands l C t) (hd : (t.lane l).state = .decided) :
    Stands l C (State.arrived (t.raiseArm l) l) := by
  have h1 := h.raiseArm
  obtain ⟨hn, hst⟩ := raiseArm_report t l
  unfold State.arrived
  split
  · next e => rw [e] at h1 hst; exact h1.onUp (by rw [hst, hd]; decide)
  · next e => rw [e] at hn; exact absurd rfl hn
  · next e => rw [e] at h1; exact h1

theorem Stands.testRelease (h : Stands l C t) : Stands l C (t.testRelease l) := by
  simp only [State.testRelease]
  split
  · next v hd _ =>
    have h1 := Stands.ite (c := v.verdict.isSome = true ∧ v.releaseMet = true ∧ v.raiseCommanded = false)
      ((h.modVisit (f := fun v => { v with raiseCommanded := true })).raised
        (by rw [State.modVisit_lane]; exact hd)) h
    exact .ite h1.enterExiting h1
  · exact h

theorem Stands.serveSign (h : Stands l C t) : Stands l C (t.serveSign l) :=
  .ite ((h.modSign _).modVisit).testRelease (h.modSign _)

theorem Stands.joinGroup (h : Stands l C t) (g : Group) : Stands l C (t.joinGroup l g) :=
  ((h.modSign _).modCounters _).serveSign

theorem Stands.handOver (h : Stands l C t) : Stands l C (t.handOver l) := by
  unfold State.handOver
  split
  · exact h
  · exact (h.modVisit).joinGroup _

theorem Stands.requestBay (h : Stands l C t) : Stands l C (t.requestBay l) := by
  simp only [State.requestBay]
  split
  · exact h
  · split
    · exact ((h.setPool _).modVisit).handOver
    · exact .ite ((h.setPool _).modVisit).handOver (h.raiseVisit _ _ _)

/-! ### Forming the verdict -/

theorem told_clearMarks (y : Visit) : told { y with checks := y.checks.clearMarks } = told y := by
  have hb : y.checks.clearMarks.booking = _ := clearMarks_get y.checks .booking
  have ht : y.checks.clearMarks.timeliness = _ := clearMarks_get y.checks .timeliness
  simp only [told, hb, ht]
  rfl

theorem Stands.tellVerdict (h : Stands l C t) : Stands l C (t.tellVerdict l) := by
  simp only [State.tellVerdict]
  split
  · exact h
  · exact .ite ((h.queueNotice _).modVisit fun y => ⟨told_clearMarks y, rfl, rfl, .inr rfl⟩) (h.queueNotice _)

theorem Stands.releaseStep (h : Stands l C t) : Stands l C (t.releaseStep l) := by
  have h1 := h.evaluate (n := .release) (by decide) false
  simp only [State.releaseStep]
  split
  · exact h
  · refine .ite h ?_
    split
    · exact .ite h1 ((h1.raiseVisit _ _ _).modVisit)
    · exact h1

/-- A visit as DECIDED finds it (R40). -/
def decidedVisit (v : Visit) : Visit := { v with
  idSettle := none, lookup := none, abandon := none, sealWait := none, surveyWait := none
  matchState := if v.matchState = .looking then .waiting else v.matchState
  bayStep := if v.verdict = some .inspect then .pending else .notNeeded }

theorem Stands.enterDecided (h : Stands l C t) : Stands l C (t.enterDecided l) := by
  have h1 : Stands l C ((t.modVisit l decidedVisit).changeLane l .decided .verdict) := by
    refine h.leave (f := decidedVisit) (fun _ => rfl) (fun y hy => ?_) (fun _ => rfl) (.inl rfl) ?_ ?_ ?_ ?_
    · exact searchOf_stilled hy
    · simp
    · rw [changeLane_lane]
    · rw [State.visit, changeLane_lane]
      exact State.modVisit_visit ..
    · rw [changeLane_exc]; exact h.entry
  exact .ite h1.requestBay h1.handOver

theorem Stands.attempt (h : Stands l C t) : Stands l C (t.attempt l) := by
  have h1 := (((h.modVisit (f := fun v => { v with attempted := true })).watchTest .plate).watchTest .front).watchTest .rear
  have h2 := h1.releaseStep
  exact .ite h (.ite h1 (.ite h2 (((h2.evaluate (by decide) true).modVisit).tellVerdict.enterDecided)))

theorem Stands.settle (h : Stands l C t) : Stands l C (t.settle l) := by
  unfold State.settle
  split
  · exact .ite h.attempt h
  · exact h

end Sys2Proof.Machine.VisitLaws
end

section
/-! SUPPORT. O32: the claim at the Booking Unit, the visit as it takes it, and the seating of its moves (R20, R38, R89, R92). -/

namespace Sys2Proof.Machine.VisitLaws

variable {s t u : State} {l : LaneNo} {v w y : Visit} {C : ClaimMade}

/-! ### The booking claimed -/

theorem find_number {b : BookUnit} {n : Nat} {k : Booking} (h : b.find n = some k) : k.number = n := by
  simpa using List.find?_some h

/-- A change of a record that keeps its number and moves keeps them for a search. -/
theorem find_modBooking {b : BookUnit} {n m : Nat} {k : Booking} (h : b.find n = some k) {f : Booking → Booking}
    (hf : ∀ x, (f x).number = x.number ∧ (f x).moves = x.moves) :
    ∃ k', (b.modBooking m f).find n = some k' ∧ k'.number = n ∧ k'.moves = k.moves := by
  have hp : ((fun x : Booking => x.number == n) ∘ fun x => if x.number = m then f x else x) = fun x => x.number == n := by
    funext x
    show ((if x.number = m then f x else x).number == n) = _
    split
    · rw [(hf x).1]
    · rfl
  refine ⟨if k.number = m then f k else k, ?_, ?_, ?_⟩
  · rw [BookUnit.find, BookUnit.modBooking, List.find?_map, hp]
    exact congrArg (Option.map _) h
  · split
    · rw [(hf k).1, find_number h]
    · exact find_number h
  · split
    · exact (hf k).2
    · rfl

theorem find_of_table {a b : BookUnit} (h : a.table = b.table) (n : Nat) : a.find n = b.find n := by
  rw [BookUnit.find, BookUnit.find, h]

/-- A claim that is made leaves the booking in the books with its number and its moves (R20 to R23). -/
theorem claim_find {b : BookUnit} {x : ClaimTerms} {n : Nat} {l : LaneNo} {m : Nat} {k : Booking} {c : Timeliness} {a : Nat}
    {d : Bool} (hc : (b.claim x n l m).2 = .claimed c a d) (hk : b.find n = some k) :
    ∃ k', (b.claim x n l m).1.find n = some k' ∧ k'.number = n ∧ k'.moves = k.moves := by
  have hmod : ∀ (e : BookUnit) (f : Booking → Booking) (i : Nat), e.table = b.table →
      (∀ y, (f y).number = y.number ∧ (f y).moves = y.moves) →
      ∃ k', (e.modBooking i f).find n = some k' ∧ k'.number = n ∧ k'.moves = k.moves :=
    fun e f i he hf => find_modBooking ((find_of_table he n).trans hk) hf
  have hlate : (b.lateClaim x k l m).2 = .claimed c a d →
      ∃ k', (b.lateClaim x k l m).1.find n = some k' ∧ k'.number = n ∧ k'.moves = k.moves := by
    unfold BookUnit.lateClaim
    dsimp only
    split
    · intro _
      refine hmod _ _ _ ?_ fun _ => ⟨rfl, rfl⟩
      split <;> rfl
    · intro h; cases h
  unfold BookUnit.claim at hc ⊢
  rw [hk] at hc ⊢
  dsimp only at hc ⊢
  split at hc
  · split at hc <;> cases hc
  · cases hc
  · cases hc
  · exact hlate hc
  · split at hc
    · exact hlate hc
    · split
      · exact hmod _ _ _ rfl fun _ => ⟨rfl, rfl⟩
      · exact hmod _ _ _ rfl fun _ => ⟨rfl, rfl⟩
    · exact hmod _ _ _ rfl fun _ => ⟨rfl, rfl⟩

/-! ### The moves seated (R89) -/

/-- The seating that the moves of a booking find for the IDs recorded. -/
def seatingOf (ms : List Move) (y : Visit) : Seating :=
  ⟨y.front.cid, y.rear.cid, y.rear.spanning, (seatMoves ms y.front y.rear).1, (seatMoves ms y.front y.rear).2, y.unplaced⟩

theorem reseat_keeps (m : Option (Nat × Basis)) (own other : PosRec) : (reseat m own other).cid = own.cid ∧
    (reseat m own other).spanning = own.spanning ∧ (reseat m own other).sealPart.move = m := by
  rcases m with _ | ⟨n, b⟩ <;> exact ⟨rfl, rfl, rfl⟩

/-- The moves once found, the claim stands with its seating. -/
theorem Stands.findMoves (h : Stands l C t) : ∃ y, t.visit l = some y ∧
    Stands l { C with seat := some (seatingOf (t.claimedMoves l) y) } (t.findMoves l) := by
  obtain ⟨y, hy, hsh, hw⟩ := h.lane.visit
  have hv : t.visit l = some y := hy
  refine ⟨y, hv, ?_⟩
  let ms := t.claimedMoves l
  let m := seatMoves ms y.front y.rear
  let f := reseat m.1 y.front y.rear
  let r := reseat m.2 y.rear y.front
  have h1 : Stands l { C with seat := some (seatingOf ms y) } (t.modVisit l fun v => { v with front := f, rear := r }) := by
    refine ⟨h.book, ?_, h.entry⟩
    rw [State.modVisit_lane]
    refine ⟨h.lane.state, { y with front := f, rear := r }, by simp [hy], ⟨hsh.told, hsh.search, fun z hz => ?_⟩, hw⟩
    obtain ⟨hfc, -, hfm⟩ := reseat_keeps m.1 y.front y.rear
    obtain ⟨hrc, hrs, hrm⟩ := reseat_keeps m.2 y.rear y.front
    cases hz
    show Seating.mk f.cid r.cid r.spanning f.sealPart.move r.sealPart.move y.unplaced = _
    rw [hfc, hfm, hrc, hrs, hrm]
    rfl
  have hon : ∀ (b : Bool) {n : CheckName} (_ : n ≠ .booking ∧ n ≠ .timeliness) {x : State} {D : ClaimMade}, Stands l D x →
      Stands l D (if b then x.evaluate l n else x) := fun b _ hn _ _ hx => .ite (hx.evaluate hn _) hx
  unfold State.findMoves
  rw [hv]
  exact hon _ (by decide) (hon _ (by decide) (hon _ (by decide) (hon _ (by decide) h1)))

/-- The unplaced seals once placed, the visit has none left. -/
theorem Stands.placeUnplaced {z : Seating} (h : Stands l { C with seat := some z } t) :
    Stands l { C with seat := some { z with unplaced := [] } } (t.placeUnplaced l) := by
  have h0 : Stands l { C with seat := some { z with unplaced := [] } } (t.modVisit l fun v => { v with unplaced := [] }) := by
    refine ⟨h.book, ?_, h.entry⟩
    obtain ⟨hst, y, hy, hsh, hw⟩ := h.lane
    rw [State.modVisit_lane]
    refine ⟨hst, { y with unplaced := [] }, by simp [hy], ⟨hsh.told, hsh.search, fun q hq => ?_⟩, hw⟩
    cases hq
    rw [← hsh.seat z rfl]
    rfl
  unfold State.placeUnplaced
  refine Stands.foldl _ (fun t x k => ?_) _ h0
  split
  · exact k
  · next p _ =>
    split
    · exact k
    · exact (k.modSeal p).countDuplicate
    · exact k.modSeal p

end Sys2Proof.Machine.VisitLaws
end

section
/-! SUPPORT. O32: the claim as the visit takes it, and the whole of the claim's steps. -/

namespace Sys2Proof.Machine.VisitLaws

variable {s t u : State} {l : LaneNo} {v w y : Visit} {C : ClaimMade}

/-! ### The moves as the statement lists them (R89) -/

/-- The bring-in moves with their places, the places counted by the list itself. -/
def placedMoves (ms : List Move) : List (Nat × Move) := (ms.zipIdx.filter fun m => m.1.kind.bringIn).map fun m => (m.2 + 1, m.1)

theorem bringIns_eq (ms : List Move) : bringIns ms = placedMoves ms := by
  have hz : (List.range ms.length).zip ms = ms.zipIdx.map Prod.swap := by
    rw [List.zipIdx_eq_zip_range', List.zip_swap, List.range_eq_range']
  rw [bringIns, hz, placedMoves]
  induction ms.zipIdx with
  | nil => rfl
  | cons m xs ih =>
    rw [List.map_cons, List.filterMap_cons, List.filter_cons, ih]
    cases hb : m.1.kind.bringIn <;> simp [hb]

/-- The recorded move of an ID. -/
def namedMove (ms : List Move) (p : Text) : Option (Nat × Basis) :=
  ((placedMoves ms).find? fun m => m.2.cid == some p).map fun m => (m.1, .recorded)

/-- The expected moves, those of the boxes recorded in neither position. -/
def expectedMoves (ms : List Move) (f g : Option Text) : List (Nat × Basis) :=
  ((placedMoves ms).filter fun m => !(f.isSome && m.2.cid == f) && !(g.isSome && m.2.cid == g)).map fun m =>
    (m.1, Basis.expected)

theorem placeOfCid_recorded (ms : List Move) (p : Text) :
    (placeOfCid ms p).map (fun n => (n, Basis.recorded)) = namedMove ms p := by
  rw [placeOfCid, bringIns_eq, namedMove, Option.map_map]
  rfl

theorem missingPlaces_expected (ms : List Move) (f g : Option Text) :
    (missingPlaces ms f g).map (fun n => (n, Basis.expected)) = expectedMoves ms f g := by
  simp only [missingPlaces, expectedMoves, bringIns_eq, List.map_map, Bool.and_comm]
  rfl

theorem seatMoves_front (ms : List Move) (a b : PosRec) : (seatMoves ms a b).1 = match a.cid with
    | some p => namedMove ms p
    | none => (expectedMoves ms a.cid b.cid).head? := by
  unfold seatMoves
  cases a.cid
  · dsimp only
    rw [← missingPlaces_expected, List.head?_map]
  · exact placeOfCid_recorded ms _

theorem seatMoves_rear (ms : List Move) (a b : PosRec) : (seatMoves ms a b).2 = match b.cid with
    | some p => if b.spanning then none else namedMove ms p
    | none => if a.cid = none then (expectedMoves ms a.cid b.cid).tail.head? else (expectedMoves ms a.cid b.cid).head? := by
  unfold seatMoves
  cases b.cid
  · dsimp only
    rw [← missingPlaces_expected, List.head?_map, ← List.map_tail, List.head?_map]
    cases a.cid <;> rfl
  · dsimp only
    rw [placeOfCid_recorded]

/-! ### The visit as it takes the claim -/

/-- The visit as the claim finds it (R38). -/
def claimVisit (s : State) (n : Nat) (c : Timeliness) (v : Visit) : Visit := { v with
  matchState := .claimed, claimed := some n, timeliness := some c, idSettle := none, lookup := none
  sealWait := some s.store.work.sealWait, surveyWait := some s.store.work.surveyWait }

/-- What TIMELINESS is evaluated to at a claim of a class (R117, R120). -/
def claimTimeliness (c : Timeliness) (k : Check) : Outcome :=
  if c = .early ∧ k.waives .windowEarly = false then .windowEarly else .pass

/-- The claim that is made. -/
def claimMade (s : State) (l : LaneNo) (v : Visit) (n : Nat) (c : Timeliness) : ClaimMade where
  book := s.book
  told := (v.number, some n, some c, v.refused, (v.checks.booking.take .pass).outcome,
    (v.checks.timeliness.take (claimTimeliness c v.checks.timeliness)).outcome)
  waits := (some s.store.work.sealWait, some s.store.work.surveyWait)
  entry := (s.exc.entries.find? (searchEntryOf l v.number)).map (·.number)
  seat := none

theorem evaluate_undecided {ms : List Move} {n : CheckName} {a : Bool} (h : y.verdict = none) : y.evaluate ms n a =
    { y with checks := y.checks.set n ((y.checks.get n).take (outcomeNow y ms n a)) } := by
  rw [Visit.evaluate, h]; rfl

/-- The retry entry of NO_BOOKING cleared, if there is one: the lane and the books stand, the entry is settled (R35). -/
theorem clearRetry_search (hb : Bounds s) (he : t.exc = s.exc) (hv : t.visit l = some v) :
    (t.clearRetry .noBooking l none).lane l = t.lane l ∧ (t.clearRetry .noBooking l none).book = t.book ∧
      Settled ((s.exc.entries.find? (searchEntryOf l v.number)).map (·.number)) (t.clearRetry .noBooking l none).exc := by
  unfold State.clearRetry
  rw [retryEntry_search hv, he]
  cases hf : s.exc.entries.find? (searchEntryOf l v.number)
  case none => exact ⟨rfl, rfl, fun k hk => by cases hk⟩
  case some e =>
    rw [Option.map_some]
    have ha := reportCleared_armTo t e.number l
    refine ⟨ha.lane, ha.beside.book, fun k hk => ?_⟩
    cases hk
    have hret := ((searchEntryOf_iff ..).mp (List.find?_some hf)).1
    have hent : t.entry e.number = some e := by
      rw [State.entry, he]
      exact hb.entry_find hf
    have hx : (t.reportCleared e.number).exc = (t.modEntry e.number fun x => x.resolved .cleared).exc := by
      simp only [State.reportCleared, hent, hret, if_true, queueNotice_exc]
    rw [hx]
    refine ⟨?_, fun d hd hk => ?_⟩
    · show e.number < t.exc.next
      rw [he]
      exact hb.below e (List.mem_of_find?_eq_some hf)
    · simp only [State.modEntry, List.mem_map] at hd
      obtain ⟨z, -, rfl⟩ := hd
      by_cases hz : z.number = e.number
      · rw [if_pos hz]; exact ⟨rfl, rfl⟩
      · rw [if_neg hz] at hk; exact absurd hk hz

theorem bookingPassed (hv : s.visit l = some v) (hd : v.verdict = none) : s.bookingEvent l .pass = withVisit s l { v with
    lastBooking := .pass, checks := v.checks.set .booking (v.checks.booking.take .pass) } := by
  rw [State.bookingEvent, modVisit_withVisit hv, evaluate_of_withVisit, evaluate_undecided (by exact hd)]
  rfl

theorem timelinessTaken (hv : s.visit l = some v) (hd : v.verdict = none) (hc : v.claimed.isSome = true) (c : Timeliness) :
    s.timelinessEvent l (if c = .early then .windowEarly else .pass) = withVisit s l { v with
      lastTimeliness := if c = .early then .windowEarly else .pass
      checks := v.checks.set .timeliness (v.checks.timeliness.take (claimTimeliness c v.checks.timeliness)) } := by
  have ho : ∀ ms, outcomeNow { v with lastTimeliness := if c = .early then .windowEarly else .pass } ms .timeliness false =
      claimTimeliness c v.checks.timeliness := by
    intro ms
    show timelinessEval v.checks.timeliness _ = _
    by_cases he : c = .early
    · cases hw : v.checks.timeliness.waives .windowEarly <;> simp [timelinessEval, searchEval, claimTimeliness, he, hc, hw]
    · simp [timelinessEval, claimTimeliness, he]
  rw [State.timelinessEvent, modVisit_withVisit hv, evaluate_of_withVisit, evaluate_undecided (by exact hd), ho]
  rfl

/-- The part as the claim is taken, up to the two checks of the search. -/
def claimTaken (s : State) (l : LaneNo) (k : Booking) (c : Timeliness) : State :=
  let s2 := ((s.modVisit l (claimVisit s k.number c)).changeLane l .checking .matched).startAbandon l
  ((s2.clearRetry .noBooking l none).bookingEvent l .pass).timelinessEvent l (if c = .early then .windowEarly else .pass)

theorem claimTaken_stands (hb : Bounds s) (hv : s.visit l = some v) (hd : v.verdict = none) (k : Booking) (c : Timeliness) :
    Stands l (claimMade s l v k.number c) (claimTaken s l k c) := by
  let s1 := (s.modVisit l (claimVisit s k.number c)).changeLane l .checking .matched
  have hv1 : s1.visit l = some (claimVisit s k.number c v) := by
    rw [State.visit, changeLane_lane]
    exact (State.modVisit_visit ..).trans (by rw [hv]; rfl)
  have h2 := startAbandon_eq hv1
  generalize hg : ({ claimVisit s k.number c v with
    abandon := if s1.input l .arrival || s1.input l .stop then (claimVisit s k.number c v).abandon
      else some ((claimVisit s k.number c v).abandon.getD s1.store.work.abandon) } : Visit) = v2 at h2
  have hnum : v2.number = v.number := by rw [← hg]; rfl
  obtain ⟨hlane, hbook, hset⟩ := clearRetry_search (t := s1.startAbandon l) hb
    (by rw [h2, withVisit_exc, changeLane_exc]; rfl) (by rw [h2]; exact withVisit_visit ..)
  rw [hnum] at hset
  have hv3 : ((s1.startAbandon l).clearRetry .noBooking l none).visit l = some v2 := by
    rw [State.visit, hlane, h2, withVisit_lane]
  have hd2 : v2.verdict = none := by rw [← hg]; exact hd
  have hst : claimTaken s l k c = withVisit ((s1.startAbandon l).clearRetry .noBooking l none) l { v2 with
      lastBooking := .pass, lastTimeliness := if c = .early then .windowEarly else .pass
      checks := (v2.checks.set .booking (v2.checks.booking.take .pass)).set .timeliness
        (v2.checks.timeliness.take (claimTimeliness c v2.checks.timeliness)) } := by
    refine (timelinessTaken (v := { v2 with
      lastBooking := .pass, checks := v2.checks.set .booking (v2.checks.booking.take .pass) }) ?_ hd2 ?_ c).trans ?_
    · exact (congrArg (State.visit · l) (bookingPassed hv3 hd2)).trans (withVisit_visit ..)
    · rw [← hg]; rfl
    · exact (congrArg (withVisit · l _) (bookingPassed hv3 hd2)).trans (withVisit_withVisit ..)
  rw [hst]
  refine ⟨?_, ?_, ?_⟩
  · rw [withVisit_book, hbook, h2, withVisit_book, changeLane_book]; rfl
  · have hstate : ((s1.startAbandon l).lane l).state = .checking := by rw [h2, withVisit_lane, changeLane_lane]
    rw [withVisit_lane, hlane]
    refine ⟨.inl hstate, _, rfl, ⟨?_, ?_, fun z hz => by cases hz⟩, fun _ => ?_⟩ <;> rw [← hg] <;> rfl
  · rw [withVisit_exc]; exact hset

/-- Every step of a claim taken: the claim stands, its moves seated by the IDs recorded. -/
theorem takeClaim_stands (hb : Bounds s) (hv : s.visit l = some v) (hd : v.verdict = none) {k : Booking} {c : Timeliness}
    (hk : s.book.find k.number = some k) : ∃ y, Stands l { claimMade s l v k.number c with
      seat := some { seatingOf k.moves y with unplaced := [] } } (s.takeClaim l k c) := by
  have h4 := claimTaken_stands hb hv hd k c
  have h5 := Stands.ite (c := c = .early)
    (h4.raiseVisit .windowEarly none (30 * k.window - s.clock.minute)) h4
  have h6 := ((h5.widen rfl).flagForeign).comparePlates
  obtain ⟨y, hy, h7⟩ := h6.findMoves
  have h8 := h7.placeUnplaced
  have h9 := Stands.foldl (fun t p => if (t.posRec l p).recorded then t.evalSeal l p else t)
    (fun _ p h => .ite (h.evalSeal p _) h) bothPos h8
  have h10 := Stands.foldl (fun t p => t.gradeHeld l p) (fun _ p h => h.gradeHeld p) bothPos h9
  refine ⟨y, ?_⟩
  have hms : State.claimedMoves (State.comparePlates (State.flagForeign (State.widen (if c = .early then
      ((claimTaken s l k c).raiseVisit .windowEarly l none (30 * k.window - s.clock.minute)).1 else claimTaken s l k c) l) l) l) l
      = k.moves := by
    obtain ⟨z, hz, hsh, -⟩ := h6.lane.visit
    have hclaimed : z.claimed = some k.number := congrArg (·.2.1) hsh.told
    have hz' : State.visit _ l = some z := hz
    rw [State.claimedMoves, State.claimedBooking, hz', h6.book]
    simp only [Option.bind_some, hclaimed]
    rw [show (claimMade s l v k.number c).book = s.book from rfl, hk]
    rfl
  rw [hms] at h10
  exact h10.evaluateIds.settle

end Sys2Proof.Machine.VisitLaws
end

section
/-! SUPPORT. O32: the claim told from the lane's side, and the obligation. -/

namespace Sys2Proof.Machine.VisitLaws

variable {s t u : State} {l : LaneNo} {v w y : Visit} {C : ClaimMade}

/-- A claim that is made is taken by the visit, and stands (R20, R38). -/
theorem claimBooking_stands (hb : Bounds s) (hv : s.visit l = some v) (hd : v.verdict = none) {n : Nat} {c : Timeliness}
    {a : Nat} {m : Bool} {k : Booking} (hc : (s.book.claim s.claimTerms n l v.number).2 = .claimed c a m)
    (hk : s.book.find n = some k) : ∃ y, Stands l
      { claimMade { s with book := (s.book.claim s.claimTerms n l v.number).1 } l v n c with
        seat := some { seatingOf k.moves y with unplaced := [] } } (s.claimBooking l n) := by
  obtain ⟨k', hk', hn, hm⟩ := claim_find hc hk
  have hcb : s.claimBooking l n =
      State.takeClaim { s with book := (s.book.claim s.claimTerms n l v.number).1 } l k' c := by
    simp only [State.claimBooking, visitNumber_of_visit hv, hc, hk']
  obtain ⟨y, hy⟩ := takeClaim_stands (s := { s with book := (s.book.claim s.claimTerms n l v.number).1 }) (v := v) (c := c)
    (Act.book (.refl hb) (BookUnit.claim_kept ..)).bounds hv hd (k := k') (by rw [hn]; exact hk')
  rw [hn, hm] at hy
  exact ⟨y, hcb ▸ hy⟩

/-- What a seated visit shows of its moves. -/
theorem Shows.seated {ms : List Move} {x : Visit} (h : Shows C y)
    (hs : C.seat = some { seatingOf ms x with unplaced := [] }) : y.unplaced = [] ∧
      y.front.sealPart.move = (seatMoves ms y.front y.rear).1 ∧ y.rear.sealPart.move = (seatMoves ms y.front y.rear).2 := by
  have hz := h.seat _ hs
  have hf : y.front.cid = x.front.cid := congrArg Seating.front hz
  have hr : y.rear.cid = x.rear.cid := congrArg Seating.rear hz
  have hsp : y.rear.spanning = x.rear.spanning := congrArg Seating.spanning hz
  have hm : seatMoves ms y.front y.rear = seatMoves ms x.front x.rear := by
    simp only [seatMoves, hf, hr, hsp]
  rw [hm]
  exact ⟨congrArg Seating.unplaced hz, congrArg Seating.frontMove hz, congrArg Seating.rearMove hz⟩

end Sys2Proof.Machine.VisitLaws

open Sys2Proof Sys2Proof.Machine Sys2Proof.Machine.VisitLaws in
/-- Settles O32: the claim stands through its steps; NO_BOOKING by its answer, then by the failures of its step. -/
theorem claimsReachTheVisit : Obligations.ClaimsReachTheVisit := by
  intro s l v hb hv hd x w ours entry hx
  obtain ⟨hc, ht⟩ := searching_open hx
  refine ⟨fun n c at_ moved k hcl hk => ?_, fun n hn => ?_, fun d ho hwv => ?_⟩
  · obtain ⟨y0, hst⟩ := claimBooking_stands hb hv hd hcl hk
    obtain ⟨y, hy, hsh, hw⟩ := hst.lane.visit
    obtain ⟨hnum, hcm, htm, hrf, hbk, htl⟩ : y.number = _ ∧ y.claimed = _ ∧ y.timeliness = _ ∧ y.refused = _ ∧
        y.checks.booking.outcome = _ ∧ y.checks.timeliness.outcome = _ := by
      simpa only [told, claimMade, Prod.mk.injEq] using hsh.told
    obtain ⟨hms, hlk, hid⟩ : y.matchState = _ ∧ y.lookup = _ ∧ y.idSettle = _ := by
      simpa only [searchOf, searchOver, Prod.mk.injEq] using hsh.search
    obtain ⟨hun, hfm, hrm⟩ := hsh.seated rfl
    refine ⟨hst.book, fun e he => (hst.entry e.number ?_).2, hst.lane.state, y, hy, hnum, hms, hcm, htm, hlk, hid, hrf, hun,
      fun hch => ?_, fun hov => ?_, fun hov => ?_, ?_, ?_⟩
    · exact congrArg (Option.map (·.number)) he
    · exact Prod.mk.inj (hw hch)
    · rw [hbk, take_outcome hov]
    · rw [htl, take_outcome hov]; rfl
    · rw [hfm, seatMoves_front]
      cases y.front.cid <;> rfl
    · rw [hrm, seatMoves_rear]
      cases y.rear.cid <;> rfl
  · have hn' := visitNumber_of_visit hv
    rcases hn with hn | hn <;> rw [State.claimBooking, hn', hn]
  · obtain ⟨y, hy, he⟩ := unbooked_of_event hv hd ho hwv
    refine ⟨fun hr h1 h2 => ⟨fun hresp hlim => ?_, fun hresp => ?_, fun hresp => ?_⟩, fun hr => ⟨fun hn => ?_, fun e hn => ?_⟩⟩
    · exact noBooking_retries hy he d hr ⟨h1, h2⟩ ht hresp hlim
    · exact noBooking_holds hy he d hr ⟨h1, h2⟩ hc ht hresp
    · exact noBooking_notes hy he d hr ⟨h1, h2⟩ hresp
    · exact noBooking_nothing hy he d hr hn
    · exact ⟨fun hlim => noBooking_counts hy he d hr hb hn ht hlim, fun hlim => noBooking_escalates hy he d hr hb hn hc ht hlim⟩
end

section
/-! SUPPORT. O39: the arms of the barrier to the whole state: what an arm makes of the part whose motion does not end at once, or ends
without the fault entry mark. -/

namespace Sys2Proof.Machine.LineLaws

open Sys2Proof.Machine.VisitLaws

variable {s t u : State} {l : LaneNo}

/-! ### The barrier of a lane replaced -/

/-- The part with a lane's barrier replaced. -/
def withBarrier (s : State) (l : LaneNo) (b : Barrier) : State := s.setLane l { s.lane l with barrier := b }

theorem modBarrier_eq (s : State) (l : LaneNo) (f : Barrier → Barrier) : s.modBarrier l f = withBarrier s l (f (s.barrier l)) := rfl

section WithBarrier
variable (s : State) (l : LaneNo) (b : Barrier)
@[simp] theorem withBarrier_lane : (withBarrier s l b).lane l = { s.lane l with barrier := b } := State.setLane_lane ..
@[simp] theorem withBarrier_barrier : (withBarrier s l b).barrier l = b := by rw [State.barrier, withBarrier_lane]
@[simp] theorem withBarrier_visit : (withBarrier s l b).visit l = s.visit l := by rw [State.visit, withBarrier_lane]; rfl
@[simp] theorem withBarrier_input (i : Input) : (withBarrier s l b).input l i = s.input l i := by
  rw [State.input, withBarrier_lane]; rfl
@[simp] theorem withBarrier_exc : (withBarrier s l b).exc = s.exc := State.setLane_exc ..
@[simp] theorem withBarrier_store : (withBarrier s l b).store = s.store := State.setLane_store ..
@[simp] theorem withBarrier_withBarrier (c : Barrier) : withBarrier (withBarrier s l b) l c = withBarrier s l c := by
  rw [withBarrier, withBarrier_lane]
  exact setLane_setLane ..
end WithBarrier

/-! ### A motion begins (R59, R60) -/

/-- An arrival without the fault entry mark changes the barrier alone (R61). -/
theorem arriveAt_unmarked (hm : (s.barrier l).faultMark = false) (a : Arrival) : s.arriveAt l a =
    (withBarrier s l ⟨Arrival.state a, none, false, (s.barrier l).exitHold, none⟩, some a) := by
  refine Prod.ext ?_ rfl
  rw [arriveAt_eq, if_neg (by simp [hm]), modBarrier_eq, Barrier.stopped, hm]

/-- A raise that begins: under way, or without the fault entry mark at UP at once. -/
def Raises (s : State) (l : LaneNo) (r : State × Option Arrival) : Prop :=
  (s.input l .upSense = false → r =
    (withBarrier s l ⟨.raising, none, (s.barrier l).faultMark, (s.barrier l).exitHold, some s.store.work.raiseTime⟩, none)) ∧
  (s.input l .upSense = true → (s.barrier l).faultMark = false → r =
    (withBarrier s l ⟨.up, none, false, (s.barrier l).exitHold, none⟩, some .up))

/-- A lower that begins: under way, or without the fault entry mark at DOWN at once. -/
def Lowers (s : State) (l : LaneNo) (r : State × Option Arrival) : Prop :=
  (s.input l .downSense = false → r =
    (withBarrier s l ⟨.lowering, none, (s.barrier l).faultMark, false, some s.store.work.lowerTime⟩, none)) ∧
  (s.input l .downSense = true → (s.barrier l).faultMark = false → r =
    (withBarrier s l ⟨.down, none, false, false, none⟩, some .down))

theorem enterRaising_raises (s : State) (l : LaneNo) : Raises s l (s.enterRaising l) := by
  unfold State.enterRaising
  rw [modBarrier_eq]
  refine ⟨fun h => by rw [h]; rfl, fun h hm => ?_⟩
  rw [h, if_pos rfl, arriveAt_unmarked (by simpa using hm), withBarrier_barrier, withBarrier_withBarrier]
  rfl

theorem enterLowering_lowers (s : State) (l : LaneNo) : Lowers s l (s.enterLowering l) := by
  unfold State.enterLowering
  rw [modBarrier_eq]
  refine ⟨fun h => by rw [h]; rfl, fun h hm => ?_⟩
  rw [h, if_pos rfl, arriveAt_unmarked (by simpa using hm), withBarrier_barrier, withBarrier_withBarrier]
  rfl

/-! ### The raise command (R59) -/

theorem raiseArm_begins (h : (s.barrier l).state = .down ∨ (s.barrier l).state = .lowering) : s.raiseArm l = s.enterRaising l := by
  rcases h with h | h <;> simp only [State.raiseArm, h]

theorem raiseArm_under_way (h : (s.barrier l).state = .raising ∨ (s.barrier l).state = .up) :
    s.raiseArm l = (s.modBarrier l fun b => { b with exitHold := false }, none) := by
  rcases h with h | h <;> simp only [State.raiseArm, h]

theorem raiseArm_fault (h : (s.barrier l).state = .fault) : s.raiseArm l =
    if (s.barrier l).faultMark then (s.modBarrier l fun b => { b with pending := some .raise }, none) else s.enterRaising l := by
  simp only [State.raiseArm, h]

/-! ### The lower command (R60) -/

theorem lowerArm_from_up (h : (s.barrier l).state = .up ∨ (s.barrier l).state = .raising) : s.lowerArm l =
    if s.input l .exit then (s.modBarrier l fun b => { b with exitHold := true }, none) else s.enterLowering l := by
  rcases h with h | h <;> simp only [State.lowerArm, h]

theorem lowerArm_under_way (h : (s.barrier l).state = .lowering ∨ (s.barrier l).state = .down) : s.lowerArm l = (s, none) := by
  rcases h with h | h <;> simp only [State.lowerArm, h]

theorem lowerArm_fault (h : (s.barrier l).state = .fault) : s.lowerArm l =
    if (s.barrier l).faultMark then (s.modBarrier l fun b => { b with pending := some .lower }, none) else s.enterLowering l := by
  simp only [State.lowerArm, h]

/-! ### The retry step's attempt and the finding of the position (R64, R65) -/

theorem verdictFormed_iff (s : State) (l : LaneNo) : s.verdictFormed l = true ↔ ∃ v, s.visit l = some v ∧ v.verdict ≠ none := by
  simp [State.verdictFormed, Option.any_eq_true, Option.isSome_iff_ne_none]

theorem attemptMotion_none (h : (s.barrier l).state ≠ .fault) : s.attemptMotion l = (s, none) := if_pos h

theorem attemptMotion_fault (h : (s.barrier l).state = .fault) : s.attemptMotion l =
    if (s.barrier l).pending = some .raise ∧ s.verdictFormed l then s.enterRaising l else s.enterLowering l :=
  if_neg (not_not_intro h)

theorem findArm_none (h : (s.barrier l).state ≠ .fault) : s.findArm l = (s, none) := if_pos h

theorem findArm_fault (h : (s.barrier l).state = .fault) : s.findArm l =
    if (s.barrier l).pending = some .raise ∧ s.input l .upSense ∧ s.input l .downSense = false then s.arriveAt l .up
    else if (s.barrier l).pending = some .lower ∧ s.input l .downSense ∧ s.input l .upSense = false then s.arriveAt l .down
    else s.attemptMotion l := if_neg (not_not_intro h)

/-- Sense lines that agree do not tell the position. -/
theorem findArm_untold (h : (s.barrier l).state = .fault) (hi : s.input l .upSense = s.input l .downSense) :
    s.findArm l = s.attemptMotion l := by
  rw [findArm_fault h, hi]
  cases s.input l .downSense <;> simp

end Sys2Proof.Machine.LineLaws

open Sys2Proof Sys2Proof.Machine Sys2Proof.Machine.LineLaws in
/-- Settles O39: each row of the tables is an equation of its arm, and a motion that begins is `enterRaising_raises` or
`enterLowering_lowers`. -/
theorem barrierCommands : Obligations.BarrierCommands := by
  refine ⟨fun b => by simp [Barrier.drive], ?_⟩
  intro s l b now w raising lowering up down lowered raises lowers
  have raised : raises (s.enterRaising l) := enterRaising_raises s l
  have lowered' : lowers (s.enterLowering l) := enterLowering_lowers s l
  have raising_of : ∀ {r}, r = s.enterRaising l → raises r := fun {_} h => h ▸ raised
  have lowering_of : ∀ {r}, r = s.enterLowering l → lowers r := fun {_} h => h ▸ lowered'
  refine ⟨fun h => raising_of (raiseArm_begins h), raiseArm_under_way,
    fun h hm => ⟨(raiseArm_fault h).trans (if_pos hm), (lowerArm_fault h).trans (if_pos hm)⟩,
    fun h hm => ⟨raising_of ((raiseArm_fault h).trans (if_neg (Bool.eq_false_iff.mp hm))),
      lowering_of ((lowerArm_fault h).trans (if_neg (Bool.eq_false_iff.mp hm)))⟩,
    fun h => ⟨fun he => (lowerArm_from_up h).trans (if_pos he),
      fun he => lowering_of ((lowerArm_from_up h).trans (if_neg (Bool.eq_false_iff.mp he)))⟩,
    lowerArm_under_way, fun h => ⟨attemptMotion_none h, findArm_none h⟩,
    fun h => ⟨fun hp hf => ?_, fun hp => ?_, fun hp hu hd hm => ?_, fun hp hd hu hm => ?_, findArm_untold h⟩⟩
  · exact raising_of ((attemptMotion_fault h).trans (if_pos ⟨hp, (verdictFormed_iff s l).mpr hf⟩))
  · refine lowering_of ((attemptMotion_fault h).trans (if_neg ?_))
    rintro ⟨hr, hv⟩
    rcases hp with hp | hp
    · exact absurd (hr.symm.trans hp) (by decide)
    · exact hp ((verdictFormed_iff s l).mp hv)
  · rw [findArm_fault h, if_pos ⟨hp, hu, hd⟩, arriveAt_unmarked hm]; rfl
  · rw [findArm_fault h, if_neg (by simp [hu]), if_pos ⟨hp, hd, hu⟩, arriveAt_unmarked hm]; rfl
end

section
/-! SUPPORT. O37: the users of a conditioned change one by one: the stuck watch, the lane at its entry loops, the barrier at its sense
lines, the passage at EXIT LOOP, and the visit that closes at barrier DOWN. -/

namespace Sys2Proof.Machine.LineLaws

open Sys2Proof.Machine.VisitLaws

variable {s t u : State} {l : LaneNo} {i : Input} {v : Visit} {d : Verdict}

/-! ### A conditioned change as its users take it (R53) -/

/-- The part as the lane and the barrier machine have taken the change, before the stuck watch takes it. -/
def handled (s : State) (l : LaneNo) (i : Input) (on : Bool) : State := (s.laneUser l i on).barrierUser l i on

/-- The stuck watches of a lane as they take the change (R57). -/
def watchedStuck (s : State) (l : LaneNo) (i : Input) (on : Bool) : PerLoop StuckWatch :=
  match loopOf i with
  | none => (s.lane l).stuck
  | some k =>
    if on then
      if (s.lane l).state = .closed then (s.lane l).stuck
      else (s.lane l).stuck.set k { (s.lane l).stuck.get k with left := some s.store.work.loopStuck }
    else (s.lane l).stuck.set k ⟨none, false⟩

theorem withStuck_self (s : State) (l : LaneNo) : withStuck s l (s.lane l).stuck = s := setLane_self s l

theorem stuckUser_eq (s : State) (l : LaneNo) (i : Input) (on : Bool) :
    s.stuckUser l i on = withStuck s l (watchedStuck s l i on) := by
  unfold State.stuckUser watchedStuck
  cases loopOf i with
  | none => exact (withStuck_self s l).symm
  | some k =>
    dsimp only [State.watchLoop]
    split
    · split
      · exact (withStuck_self s l).symm
      · rfl
    · rfl

theorem conditioned_eq (s : State) (l : LaneNo) (i : Input) (on : Bool) : s.conditioned l i on =
    withStuck (handled s l i on) l (watchedStuck (handled s l i on) l i on) := stuckUser_eq ..

section Conditioned
variable (s : State) (l : LaneNo) (i : Input) (on : Bool)
theorem conditioned_lane : (s.conditioned l i on).lane l =
    { (handled s l i on).lane l with stuck := watchedStuck (handled s l i on) l i on } := by
  rw [conditioned_eq]; exact State.setLane_lane ..
theorem conditioned_exc : (s.conditioned l i on).exc = (handled s l i on).exc := by rw [conditioned_eq]; rfl
theorem conditioned_book : (s.conditioned l i on).book = (handled s l i on).book := by rw [conditioned_eq]; rfl
end Conditioned

/-- The call button queues its notice and does nothing else (R56). -/
theorem conditioned_call (s : State) (l : LaneNo) (on : Bool) : s.conditioned l .call on = if on then s.callNotice l else s := by
  cases on <;> rfl

/-! ### The entry loops (R27, R29, R39) -/

theorem handled_entry_on (h : i = .arrival ∨ i = .stop) : handled s l i true = s.entryOccupied l (decide (i = .stop)) := by
  rcases h with rfl | rfl <;> rfl

theorem handled_entry_off (h : i = .arrival ∨ i = .stop) : handled s l i false = s.entryCleared l := by
  rcases h with rfl | rfl <;> rfl

theorem entryOccupied_idle (h : (s.lane l).state = .idle) (hc : (s.lane l).closePending = false) (stop : Bool) :
    s.entryOccupied l stop = s.openVisit l := by
  simp only [State.entryOccupied, h, hc, Bool.false_eq_true, if_false]

/-- The lane has a visit that gathers its reads, and no verdict. -/
def Gathers (s : State) (l : LaneNo) : Prop :=
  (s.lane l).state = .arriving ∨ (s.lane l).state = .awaitingHost ∨ (s.lane l).state = .checking

theorem entryOccupied_gathers (h : Gathers s l) (hv : s.visit l = some v) (stop : Bool) : s.entryOccupied l stop =
    withVisit s l { v with
      abandon := none
      idSettle := if stop ∧ (s.lane l).state = .arriving ∧ v.matchState = .notTried then
        some (v.idSettle.getD s.store.work.idSettle) else v.idSettle } := by
  rcases h with h | h | h <;> simp only [State.entryOccupied, h] <;> rw [modVisit_withVisit hv] <;> simp

theorem entryCleared_gathers (h : Gathers s l) : s.entryCleared l = s.startAbandon l := by
  rcases h with h | h | h <;> exact if_pos (by rw [State.gathers, h]; rfl)

theorem handled_opens (hi : i = .arrival ∨ i = .stop) (h : (s.lane l).state = .idle)
    (hc : (s.lane l).closePending = false) : handled s l i true = s.openVisit l := by
  rw [handled_entry_on hi, entryOccupied_idle h hc]

/-! ### The barrier at its sense lines (R61) -/

theorem handled_upSense (h : (s.lane l).barrier.state = .raising) (hm : (s.lane l).barrier.faultMark = false) :
    handled s l .upSense true = (withBarrier s l { s.barrier l with state := .up, pending := none, left := none }).onUp l := by
  show State.arrived (s.senseUp l) l = _
  rw [State.senseUp, if_pos (by exact h), arriveAt_unmarked hm, ← show (s.barrier l).faultMark = false from hm]
  rfl

theorem handled_downSense (h : (s.lane l).barrier.state = .lowering) (hm : (s.lane l).barrier.faultMark = false) :
    handled s l .downSense true = (withBarrier s l { s.barrier l with state := .down, pending := none, left := none }).onDown l := by
  show State.arrived (s.senseDown l) l = _
  rw [State.senseDown, if_pos (by exact h), arriveAt_unmarked hm, ← show (s.barrier l).faultMark = false from hm]
  rfl

/-- At UP a decided lane with its raise commanded leaves for EXITING (R42). -/
theorem onUp_decided (hx : (s.lane l).state = .decided) (hv : s.visit l = some v) :
    s.onUp l = if v.raiseCommanded then s.enterExiting l else s := by
  rw [State.onUp, hx, hv]

/-- At UP a lane neither decided nor with a lower held back stays as it is (R42). -/
theorem onUp_stays (hx : (s.lane l).state ≠ .decided) (hv : s.visit l = some v)
    (hl : (s.lane l).state ≠ .exiting ∨ v.lowerHeld = false) : s.onUp l = s := by
  unfold State.onUp
  rw [hv]
  cases h : (s.lane l).state
  case decided => exact absurd h hx
  case exiting => simp [hl.resolve_left (not_not_intro h)]
  all_goals rfl

theorem enterExiting_lane (s : State) (l : LaneNo) :
    (s.enterExiting l).lane l = { s.lane l with state := .exiting, lamp := .green } := by
  rw [State.enterExiting, changeLane_lane, State.modLane_lane]

theorem enterExiting_exc (s : State) (l : LaneNo) : (s.enterExiting l).exc = s.exc := by
  rw [State.enterExiting, changeLane_exc, State.modLane_exc]

/-! ### EXIT LOOP: the safety reversal and the passage (R42, R60, R62) -/

theorem under_exiting_iff (x : Lane) :
    x.under = .exiting ↔ x.state = .exiting ∨ x.state = .trouble ∧ x.interrupted = some .exiting := by
  unfold Lane.under
  cases hs : x.state with
  | trouble => cases hi : x.interrupted <;> simp
  | _ => simp

/-- The part as EXIT LOOP has been occupied: the passage mark set where the lane is, or was interrupted, in EXITING. -/
theorem exitOccupied_lane (s : State) (l : LaneNo) : ∃ w, (s.exitOccupied l).lane l = { s.lane l with visit := w } ∧
    ((s.lane l).under = .exiting → w = (s.lane l).visit.map fun v => { v with passage := true }) := by
  unfold State.exitOccupied
  split
  · exact ⟨_, State.modVisit_lane .., fun _ => rfl⟩
  · next h => exact ⟨_, rfl, fun k => absurd k h⟩

theorem exitOccupied_store (s : State) (l : LaneNo) : (s.exitOccupied l).store = s.store := by
  unfold State.exitOccupied
  split <;> rfl

/-- A lower that EXIT LOOP meets is reversed and the reversal counted (R62). -/
theorem reverseArm_turns (h : (s.barrier l).state = .lowering) (hu : s.input l .upSense = false) : s.reverseArm l =
    (withBarrier (s.modCounters l fun c => { c with reversals := satInc c.reversals }) l
      { s.barrier l with state := .raising, pending := none, left := some s.store.work.raiseTime }, none) := by
  have hb : (s.modCounters l fun c => { c with reversals := satInc c.reversals }).barrier l = s.barrier l := by
    rw [State.barrier, State.modCounters, State.modLane_lane]; rfl
  rw [State.reverseArm, if_pos h, (enterRaising_raises _ l).1 (by rw [input_of_lines (s := s) (by simp [State.modCounters]), hu]), hb]
  rfl

/-- A passage that ends with the barrier UP commands the lower (R42). -/
theorem exitCleared_lowers (hx : (s.lane l).state = .exiting) (hv : s.visit l = some v) (hb : (s.barrier l).state = .up) :
    s.exitCleared l = if v.passage then
      State.arrived ((withVisit s l { v with passage := false }).lowerArm l) l else s := by
  have hun : (s.lane l).under = .exiting := (under_exiting_iff _).mpr (.inl hx)
  unfold State.exitCleared
  rw [hun, hv, modVisit_withVisit hv]
  simp [hx, hb]

/-! ### The visit closes (R43) -/

/-- The part as the lane of a visit that closes leaves for IDLE. -/
def departing (s : State) (l : LaneNo) (v : Visit) (d : Verdict) : State :=
  ((((s.release l d.exit).modCounters l fun c => c.count d).discard l (openOfVisit l v.number)).dropVisit l).modLane l fun x =>
    { x with
      sign := { x.sign with queue := x.sign.queue.filter fun g => !(g.visit == v.number && g.delivered) }
      lamp := .red }

theorem visitClose_eq (hv : s.visit l = some v) (hd : v.verdict = some d) :
    s.visitClose l = (departing s l v d).enterIdle l .visitClosed := by
  unfold State.visitClose
  simp only [hv, hd]
  rfl

/-- A barrier out of FAULT without the fault entry mark has its position (R65). -/
theorem found_unmarked {b : Barrier} (h : b.state ≠ .fault) (hm : b.faultMark = false) (up down formed : Bool) (r k : Nat) :
    b.found up down formed r k = b := by
  rw [Barrier.found, if_pos h, ← hm]

/-- A booking released and a verdict counted: of the lane only its counters change. -/
theorem release_count_lane (s : State) (l : LaneNo) (d : Verdict) :
    ((s.release l d.exit).modCounters l fun c => c.count d).lane l =
      { s.lane l with counters := (s.lane l).counters.count d } := by
  rw [State.modCounters, State.modLane_lane, release_eq, lane_setBook]

theorem departing_lane (s : State) (l : LaneNo) (v : Visit) (d : Verdict) : ∃ b, (departing s l v d).lane l = { s.lane l with
      visit := none, barrier := b, lamp := .red, counters := (s.lane l).counters.count d
      sign := { (s.lane l).sign with
        queue := (s.lane l).sign.queue.filter fun g => !(g.visit == v.number && g.delivered) } } ∧
    ((s.barrier l).state ≠ .fault → (s.barrier l).faultMark = false → b = s.barrier l) := by
  have h := discard_armTo ((s.release l d.exit).modCounters l fun c => c.count d) l (openOfVisit l v.number)
  have hb : ((s.release l d.exit).modCounters l fun c => c.count d).barrier l = s.barrier l := by
    rw [State.barrier, release_count_lane]; rfl
  rw [hb] at h
  refine ⟨_, by rw [departing, State.modLane_lane, State.dropVisit, State.modLane_lane, h.lane, release_count_lane],
    fun hf hm => ?_⟩
  rw [found_unmarked hf hm, ite_self]

theorem departing_exc (s : State) (l : LaneNo) (v : Visit) (d : Verdict) : (departing s l v d).exc =
    { s.exc with entries := discarded (openOfVisit l v.number) s.exc.entries } :=
  (discard_exc _ l _).trans (by rw [State.modCounters, State.modLane_exc, release_eq])

theorem departing_beside (s : State) (l : LaneNo) (v : Visit) (d : Verdict) :
    Beside l (s.release l d.exit) (departing s l v d) := by
  refine Beside.modLane (Beside.modLane (Beside.trans ?_ (discard_armTo _ l _).beside) _) _
  exact Beside.modLane (.refl l _) _

theorem departing_nextVisit (s : State) (l : LaneNo) (v : Visit) (d : Verdict) : (departing s l v d).nextVisit = s.nextVisit :=
  (discard_armTo _ l _).nextVisit.trans (by rw [State.modCounters, State.modLane_nextVisit, release_eq])

end Sys2Proof.Machine.LineLaws
end

section
/-! SUPPORT. O37: what a conditioned change leaves of a CLOSED lane and of the stuck watches, and the obligation. -/

namespace Sys2Proof.Machine.LineLaws

open Sys2Proof.Machine.VisitLaws

variable {s t u : State} {l : LaneNo} {i : Input} {v : Visit} {d : Verdict}

/-! ### The arms that a change of a line moves -/

/-- The lane's record but for its barrier and its counters, and the settings, are as they were. -/
def ArmOnly (l : LaneNo) (s t : State) : Prop :=
  t.store = s.store ∧ ∃ b c, t.lane l = { s.lane l with barrier := b, counters := c }

theorem ArmOnly.refl (l : LaneNo) (s : State) : ArmOnly l s s := ⟨rfl, _, _, rfl⟩

theorem ArmOnly.of_armTo {b : Barrier} (h : ArmTo l s b t) : ArmOnly l s t := ⟨h.beside.store, _, _, h.lane⟩

theorem reverseArm_armOnly (s : State) (l : LaneNo) : ArmOnly l s (s.reverseArm l).1 := by
  unfold State.reverseArm
  split
  · have h := enterRaising_armTo (s.modCounters l fun c => { c with reversals := satInc c.reversals }) l
    exact ⟨h.beside.store, _, _, by rw [h.lane, State.modCounters, State.modLane_lane]⟩
  · exact .refl l s

theorem exitClears_armOnly (s : State) (l : LaneNo) : ArmOnly l s (s.exitClears l).1 := by
  unfold State.exitClears
  split
  · exact .of_armTo (lowerArm_armTo s l)
  · exact .refl l s

theorem senseUp_armOnly (s : State) (l : LaneNo) : ArmOnly l s (s.senseUp l).1 := by
  unfold State.senseUp
  split
  · exact .of_armTo (arriveAt_armTo s l .up)
  · exact .refl l s

theorem senseDown_armOnly (s : State) (l : LaneNo) : ArmOnly l s (s.senseDown l).1 := by
  unfold State.senseDown
  split
  · exact .of_armTo (arriveAt_armTo s l .down)
  · exact .refl l s

/-! ### A CLOSED lane -/

theorem laneUser_closed (h : (s.lane l).state = .closed) (i : Input) (on : Bool) : (s.laneUser l i on).lane l = s.lane l := by
  have hu : (s.lane l).under ≠ .exiting := by simp [Lane.under, h]
  have occupied : ∀ stop, s.entryOccupied l stop = s := fun _ => by simp only [State.entryOccupied, h]
  have cleared : s.entryCleared l = s := if_neg (by rw [State.gathers, h]; decide)
  unfold State.laneUser
  split
  · rw [occupied]
  · rw [occupied]
  · rw [cleared]
  · rw [cleared]
  · rw [State.exitOccupied, if_neg hu]
  · rw [State.exitCleared, if_neg (fun k => hu k.1)]
  · exact queueNotice_lane ..
  all_goals rfl

/-- A CLOSED lane acts on no arrival of its barrier. -/
theorem arrived_closed {r : State × Option Arrival} (h : (r.1.lane l).state = .closed) : State.arrived r l = r.1 := by
  obtain ⟨t, _ | _ | _⟩ := r
  · rfl
  · rw [State.arrived, State.onUp, h]
  · rw [State.arrived, State.onDown, if_neg (by rw [h]; decide)]

theorem ArmOnly.arrived {r : State × Option Arrival} (h : ArmOnly l s r.1) (hc : (s.lane l).state = .closed) :
    ArmOnly l s (State.arrived r l) := by
  obtain ⟨-, b, c, hl⟩ := id h
  rwa [arrived_closed (by rw [hl]; exact hc)]

theorem barrierUser_closed (h : (s.lane l).state = .closed) (i : Input) (on : Bool) :
    ArmOnly l s (s.barrierUser l i on) := by
  unfold State.barrierUser
  split
  · exact (reverseArm_armOnly s l).arrived h
  · exact (exitClears_armOnly s l).arrived h
  · exact (senseUp_armOnly s l).arrived h
  · exact (senseDown_armOnly s l).arrived h
  · exact .refl l s

theorem handled_closed (h : (s.lane l).state = .closed) (i : Input) (on : Bool) :
    ∃ b c, (handled s l i on).lane l = { s.lane l with barrier := b, counters := c } := by
  have hl := laneUser_closed h i on
  obtain ⟨-, b, c, hb⟩ := barrierUser_closed (s := s.laneUser l i on) (by rw [hl]; exact h) i on
  exact ⟨b, c, by rw [handled, hb, hl]⟩

theorem watchedStuck_closed (h : (s.lane l).state = .closed) (i : Input) : watchedStuck s l i true = (s.lane l).stuck := by
  unfold watchedStuck
  cases loopOf i
  · rfl
  · exact if_pos h

/-! ### The stuck watches until their own part -/

/-- The stuck watches stand as they stood, unless the lane has entered CLOSED (R57). -/
structure StuckKept (l : LaneNo) (s t : State) : Prop where
  store : t.store = s.store
  stuck : (t.lane l).state ≠ .closed → (t.lane l).stuck = (s.lane l).stuck

theorem StuckKept.refl (l : LaneNo) (s : State) : StuckKept l s s := ⟨rfl, fun _ => rfl⟩

/-- The watches kept on from a state with the same watches. -/
theorem StuckKept.after (hs : t.store = s.store) (hw : (t.lane l).stuck = (s.lane l).stuck) (h : StuckKept l t u) :
    StuckKept l s u := ⟨h.store.trans hs, fun k => (h.stuck k).trans hw⟩

theorem enterIdle_stuck (s : State) (l : LaneNo) (c : LaneCause) : StuckKept l s (s.enterIdle l c) := by
  refine ⟨(enterIdle_beside s l c).store, fun h => ?_⟩
  cases hc : (s.lane l).closePending
  · cases ht : entryTaken s l
    · rw [enterIdle_idle hc ht, changeLane_lane]
    · rw [(enterIdle_opening hc ht).1]; rfl
  · exact absurd (enterIdle_closed hc).1 h

theorem visitClose_stuck (s : State) (l : LaneNo) : StuckKept l s (s.visitClose l) := by
  cases hv : s.visit l with
  | none => rw [State.visitClose, hv]; exact .refl l s
  | some v =>
    cases hd : v.verdict with
    | none => simp only [State.visitClose, hv, hd]; exact .refl l s
    | some d =>
      obtain ⟨b, hl, -⟩ := departing_lane s l v d
      rw [visitClose_eq hv hd]
      exact .after ((departing_beside s l v d).store.trans (by rw [release_eq])) (by rw [hl]) (enterIdle_stuck _ l _)

theorem onDown_stuck (s : State) (l : LaneNo) : StuckKept l s (s.onDown l) := by
  unfold State.onDown
  split
  · exact visitClose_stuck s l
  · exact .refl l s

theorem onUp_stuck (s : State) (l : LaneNo) : StuckKept l s (s.onUp l) := by
  unfold State.onUp
  split
  · split
    · exact ⟨by simp [State.enterExiting], fun _ => by rw [enterExiting_lane]⟩
    · exact .refl l s
  · split
    · have h := lowerArm_armTo (s.modVisit l fun v => { v with lowerHeld := false }) l
      have hw : ((State.lowerArm (s.modVisit l fun v => { v with lowerHeld := false }) l).1.lane l).stuck =
          (s.lane l).stuck := by rw [h.lane, State.modVisit_lane]; rfl
      split
      · next e => rw [e] at h hw; exact .after h.beside.store hw (onDown_stuck _ l)
      · next e => rw [e] at h hw; exact .after h.beside.store hw (.refl l _)
    · exact .refl l s
  · exact .refl l s

theorem arrived_stuck (r : State × Option Arrival) (l : LaneNo) : StuckKept l r.1 (State.arrived r l) := by
  unfold State.arrived
  split
  · exact onUp_stuck _ l
  · exact onDown_stuck _ l
  · exact .refl l _

theorem entryOccupied_stuck (s : State) (l : LaneNo) (stop : Bool) : StuckKept l s (s.entryOccupied l stop) := by
  have opens : StuckKept l s (s.openVisit l) :=
    ⟨(openVisit_beside s l).store, fun _ => by rw [openVisit_lane]; rfl⟩
  unfold State.entryOccupied
  split
  · split
    · exact .refl l s
    · exact opens
  · exact ⟨rfl, fun _ => by rw [State.modVisit_lane]; rfl⟩
  · exact ⟨rfl, fun _ => by rw [State.modVisit_lane]; rfl⟩
  · exact ⟨rfl, fun _ => by rw [State.modVisit_lane]; rfl⟩
  all_goals exact .refl l s

/-- Neither the lane nor the barrier machine touches a watch as a loop becomes occupied, unless the lane enters CLOSED. -/
theorem handled_stuck {k : Loop} (hk : loopOf i = some k) (s : State) (l : LaneNo) : StuckKept l s (handled s l i true) := by
  cases i with
  | arrival => exact entryOccupied_stuck s l false
  | stop => exact entryOccupied_stuck s l true
  | exit =>
    obtain ⟨w, hl, -⟩ := exitOccupied_lane s l
    obtain ⟨hs, b, c, ha⟩ := reverseArm_armOnly (s.exitOccupied l) l
    exact .after (hs.trans (exitOccupied_store s l)) (by rw [ha, hl]) (arrived_stuck ((s.exitOccupied l).reverseArm l) l)
  | upSense | downSense | call => cases hk

/-- The watch of a loop after a conditioned change of it (R57). -/
theorem conditioned_stuck {k : Loop} (hk : loopOf i = some k) (on : Bool)
    (hy : ((s.conditioned l i on).lane l).state ≠ .closed) : ((s.conditioned l i on).lane l).stuck.get k =
      if on then { (s.lane l).stuck.get k with left := some s.store.work.loopStuck } else ⟨none, false⟩ := by
  rw [conditioned_lane] at hy ⊢
  unfold watchedStuck
  rw [hk]
  cases on with
  | false => exact PerLoop.get_set_same ..
  | true =>
    have h := handled_stuck hk s l
    have hy' : ((handled s l i true).lane l).state ≠ .closed := hy
    simp only [if_true, if_neg hy', PerLoop.get_set_same, h.stuck hy', h.store]

theorem conditioned_closed (h : (s.lane l).state = .closed) (i : Input) (on : Bool) :
    ((s.conditioned l i on).lane l).visit = (s.lane l).visit ∧ ((s.conditioned l i on).lane l).state = .closed ∧
      (on = true → ((s.conditioned l i on).lane l).stuck = (s.lane l).stuck) := by
  obtain ⟨b, c, hl⟩ := handled_closed h i on
  rw [conditioned_lane]
  refine ⟨by rw [hl], by rw [hl]; exact h, ?_⟩
  rintro rfl
  rw [watchedStuck_closed (by rw [hl]; exact h), hl]

/-! ### The visit closed at barrier DOWN, to the end (R43) -/

/-- The counters of the verdicts as one of them is counted. -/
theorem count_fields (c : LaneCounters) (d : Verdict) :
    (c.count d).admitted = (if d = .admitIn then min 65535 (c.admitted + 1) else c.admitted) ∧
    (c.count d).inspect = (if d = .inspect then min 65535 (c.inspect + 1) else c.inspect) ∧
    (c.count d).turnedAway = (if d = .turnAway then min 65535 (c.turnedAway + 1) else c.turnedAway) := by
  cases d <;> exact ⟨rfl, rfl, rfl⟩

/-- What the counters of the verdicts show is kept through IDLE. -/
theorem enterIdle_counts (hc : (s.lane l).closePending = false) (c : LaneCause) :
    ((s.enterIdle l c).lane l).counters = { (s.lane l).counters with
      visits := ((s.enterIdle l c).lane l).counters.visits } := by
  cases ht : entryTaken s l
  · rw [enterIdle_idle hc ht, changeLane_lane]
  · rw [(enterIdle_opening hc ht).1]; rfl

theorem exit_eq (d : Verdict) : d.exit = if d = .turnAway then .turned else .exit := by
  cases d <;> rfl

/-- What the part shows once the visit has closed in a lane whose barrier stands at DOWN and whose flag is clear. -/
structure Departed (s : State) (l : LaneNo) (v : Visit) (d : Verdict) (t : State) : Prop where
  book : t.book = releasedBook s v.claimed d.exit
  entries : t.exc.entries = discarded (openOfVisit l v.number) s.exc.entries
  lamp : (t.lane l).lamp = .red
  barrier : (t.lane l).barrier = s.barrier l
  queue : (t.lane l).sign.queue = (s.lane l).sign.queue.filter fun g => !(g.visit == v.number && g.delivered)
  counters : ∃ n, (t.lane l).counters = { (s.lane l).counters.count d with visits := n }
  opens : entryTaken s l = true → (t.lane l).state = .arriving ∧ (t.lane l).visit = some (freshVisit s l)
  idle : entryTaken s l = false → (t.lane l).state = .idle ∧ (t.lane l).visit = none

theorem visitClose_departed (hv : s.visit l = some v) (hd : v.verdict = some d) (hc : (s.lane l).closePending = false)
    (hf : (s.barrier l).state ≠ .fault) (hm : (s.barrier l).faultMark = false) : Departed s l v d (s.visitClose l) := by
  rw [visitClose_eq hv hd]
  obtain ⟨b, hlane, hb⟩ := departing_lane s l v d
  have hc' : ((departing s l v d).lane l).closePending = false := by rw [hlane]; exact hc
  have hin : ∀ i, (departing s l v d).input l i = s.input l i := input_of_lines (by rw [hlane])
  have htaken : entryTaken (departing s l v d) l = entryTaken s l := by rw [entryTaken, hin, hin]; rfl
  have hfresh : freshVisit (departing s l v d) l = freshVisit s l := by
    rw [freshVisit, hin, departing_nextVisit, (departing_beside s l v d).store, release_eq]; rfl
  have hkeeps := enterIdle_keeps (departing s l v d) l .visitClosed
  have hcount := enterIdle_counts hc' .visitClosed
  rw [hlane] at hkeeps hcount
  constructor
  case book =>
    rw [(enterIdle_beside _ l _).book, (departing_beside s l v d).book, release_eq, hv]; rfl
  case entries => rw [enterIdle_exc, hc', departing_exc]; rfl
  case lamp => exact hkeeps.lamp
  case barrier => rw [enterIdle_barrier, hc', State.barrier, hlane]; exact hb hf hm
  case queue => rw [hkeeps.sign]
  case counters => exact ⟨_, hcount⟩
  case opens =>
    intro ht
    rw [(enterIdle_opening hc' (htaken.trans ht)).1, openedLane, hfresh]
    exact ⟨rfl, rfl⟩
  case idle =>
    intro ht
    rw [enterIdle_idle hc' (htaken.trans ht), changeLane_lane, hlane]
    exact ⟨rfl, rfl⟩

/-! ### The lane and the barrier at each change -/

/-- BARRIER UP SENSE ends a raise: a decided lane with its raise commanded leaves for EXITING (R42, R61). -/
theorem handled_arrives (hb : (s.lane l).barrier.state = .raising) (hm : (s.lane l).barrier.faultMark = false)
    (hv : s.visit l = some v) (hl : (s.lane l).state ≠ .exiting ∨ v.lowerHeld = false) :
    (handled s l .upSense true).exc = s.exc ∧ ∃ st lamp, (handled s l .upSense true).lane l = { s.lane l with
      state := st, lamp := lamp, barrier := { s.barrier l with state := .up, pending := none, left := none } } ∧
    if (s.lane l).state = .decided ∧ v.raiseCommanded = true then st = .exiting ∧ lamp = .green
    else st = (s.lane l).state ∧ lamp = (s.lane l).lamp := by
  rw [handled_upSense hb hm]
  by_cases hx : (s.lane l).state = .decided
  · rw [onUp_decided (v := v) (by simpa using hx) (by simpa using hv)]
    cases hr : v.raiseCommanded
    · exact ⟨rfl, _, _, withBarrier_lane .., by simp⟩
    · refine ⟨by simp [enterExiting_exc], .exiting, .green, ?_, by simp [hx]⟩
      rw [if_pos rfl, enterExiting_lane, withBarrier_lane]
  · rw [onUp_stays (v := v) (by simpa using hx) (by simpa using hv) (by simpa using hl)]
    exact ⟨rfl, _, _, withBarrier_lane .., by simp [hx]⟩

/-- EXIT LOOP occupied under a lower: the reversal, and the passage mark where the lane is, or was interrupted, in EXITING
(R42, R62). -/
theorem handled_reverses (hb : (s.barrier l).state = .lowering) (hu : s.input l .upSense = false) :
    ∃ w, (handled s l .exit true).lane l = { s.lane l with
      visit := w
      barrier := { s.barrier l with state := .raising, pending := none, left := some s.store.work.raiseTime }
      counters := { (s.lane l).counters with reversals := satInc (s.lane l).counters.reversals } } ∧
    ((s.lane l).under = .exiting → w = (s.lane l).visit.map fun v => { v with passage := true }) := by
  obtain ⟨w, hw, hpass⟩ := exitOccupied_lane s l
  have hh : handled s l .exit true = State.arrived ((s.exitOccupied l).reverseArm l) l := rfl
  have hb' : (s.exitOccupied l).barrier l = s.barrier l := by rw [State.barrier, hw]; rfl
  have hu' : (s.exitOccupied l).input l .upSense = false := by rw [input_of_lines (s := s) (by rw [hw]), hu]
  refine ⟨w, ?_, hpass⟩
  rw [hh, reverseArm_turns (by rw [hb', hb]) hu', hb', State.arrived, withBarrier_lane, State.modCounters, State.modLane_lane,
    hw, exitOccupied_store]

/-- EXIT LOOP clear in EXITING with the barrier UP: a passage that was marked ends, and the arm is lowered (R42, R60). -/
theorem handled_passage (hon : s.input l .exit = false) (hx : (s.lane l).state = .exiting)
    (hb : s.barrier l = ⟨.up, none, false, false, none⟩) (hd : s.input l .downSense = false) (hv : s.visit l = some v) :
    handled s l .exit false = if v.passage then withBarrier (withVisit s l { v with passage := false }) l
      ⟨.lowering, none, false, false, some s.store.work.lowerTime⟩ else s := by
  have hh : handled s l .exit false = State.arrived ((s.exitCleared l).exitClears l) l := rfl
  rw [hh, exitCleared_lowers hx hv (by rw [hb])]
  cases v.passage
  · rw [if_neg Bool.false_ne_true, if_neg Bool.false_ne_true, State.exitClears, if_neg (by rw [hb]; decide)]
    rfl
  · have hin : ∀ i, (withVisit s l { v with passage := false }).input l i = s.input l i := input_of_lines (by simp)
    have hbv : (withVisit s l { v with passage := false }).barrier l = s.barrier l := by rw [State.barrier, withVisit_lane]; rfl
    have hlower := (enterLowering_lowers (withVisit s l { v with passage := false }) l).1 (by rw [hin, hd])
    rw [hbv, hb, withVisit_store] at hlower
    rw [if_pos rfl, if_pos rfl, lowerArm_from_up (.inl (by rw [hbv, hb])), hin, hon, if_neg Bool.false_ne_true, hlower,
      State.arrived, State.exitClears, withBarrier_barrier, if_neg Bool.false_ne_true]
    rfl

/-- BARRIER DOWN SENSE ends a lower in EXITING: the visit closes (R43, R61). -/
theorem handled_closes (hx : (s.lane l).state = .exiting) (hb : (s.lane l).barrier.state = .lowering)
    (hm : (s.lane l).barrier.faultMark = false) (hc : (s.lane l).closePending = false) (hv : s.visit l = some v)
    (hd : v.verdict = some d) :
    Departed (withBarrier s l { s.barrier l with state := .down, pending := none, left := none }) l v d
      (handled s l .downSense true) := by
  rw [handled_downSense hb hm, State.onDown, if_pos (by simpa using hx)]
  exact visitClose_departed (by simpa using hv) hd (by simpa using hc) (by simp) (by rw [withBarrier_barrier]; exact hm)

end Sys2Proof.Machine.LineLaws

open Sys2Proof Sys2Proof.Machine Sys2Proof.Machine.VisitLaws Sys2Proof.Machine.LineLaws in
/-- Settles O37: each clause is read off the lane as `handled` leaves it, `conditioned_lane` adding the stuck watch. -/
theorem conditionedChanges : Obligations.ConditionedChanges := by
  intro s l i on hon x t y
  have lane : ∀ {z : Lane}, (handled s l i on).lane l = z →
      y = { z with stuck := watchedStuck (handled s l i on) l i on } := by
    rintro z rfl; exact conditioned_lane s l i on
  have exc : t.exc = (handled s l i on).exc := conditioned_exc s l i on
  have book : t.book = (handled s l i on).book := conditioned_book s l i on
  refine ⟨?_, fun k hk hy _ => conditioned_stuck hk on hy, fun h => conditioned_closed h i on, ?_, ?_, ?_, ?_, ?_, ?_⟩
  · rintro rfl
    exact conditioned_call s l on
  · rintro rfl hi hx hc
    have hh := handled_opens hi hx hc
    rw [lane (by rw [hh, openVisit_lane]), exc, book, hh]
    exact ⟨rfl, rfl, rfl, rfl, openVisit_exc s l, (openVisit_beside s l).book⟩
  · intro hi hx v hv
    cases on with
    | true =>
      rw [lane (by rw [handled_entry_on hi, entryOccupied_gathers hx hv, withVisit_lane])]
      exact ⟨rfl, fun _ => by simp [x], nofun⟩
    | false =>
      rw [lane (by rw [handled_entry_off hi, entryCleared_gathers hx, startAbandon_eq hv, withVisit_lane])]
      exact ⟨rfl, nofun, fun _ => rfl⟩
  · rintro rfl rfl hb hm v hv hl
    obtain ⟨he, st, lamp, hz, hst⟩ := handled_arrives hb hm hv hl
    rw [exc, lane hz]
    exact ⟨he, rfl, rfl, hst⟩
  · rintro rfl rfl hb hm hu
    obtain ⟨w, hz, hpass⟩ := handled_reverses hb hu
    rw [lane hz]
    exact ⟨rfl, rfl, rfl, fun hx => hpass ((under_exiting_iff _).mpr hx)⟩
  · rintro rfl rfl hx hb hd v hv
    have hh := handled_passage hon hx hb hd hv
    refine ⟨fun hp => ?_, fun hp => ?_⟩
    · rw [lane (by rw [hh, hp])]
      exact ⟨rfl, rfl⟩
    · rw [lane (by rw [hh, if_pos hp, withBarrier_lane, withVisit_lane])]
      exact ⟨rfl, rfl, hx⟩
  · rintro rfl rfl hx hb hm hc v d hv hd
    have h := handled_closes hx hb hm hc hv hd
    obtain ⟨n, hn⟩ := h.counters
    obtain ⟨ha, hi, ht⟩ := count_fields x.counters d
    rw [book, exc, lane rfl]
    refine ⟨?_, h.lamp, h.barrier.trans (withBarrier_barrier ..), ?_, h.queue.trans ?_, ?_, ?_, ?_, ?_⟩
    · rw [h.book, exit_eq]; rfl
    · rw [h.entries, discarded_openOfVisit]; rfl
    · rw [withBarrier_lane]; rfl
    · dsimp only; rw [hn, withBarrier_lane]; exact ha
    · dsimp only; rw [hn, withBarrier_lane]; exact hi
    · dsimp only; rw [hn, withBarrier_lane]; exact ht
    · have hin := withBarrier_input s l { s.barrier l with state := .down, pending := none, left := none }
      split
      · next h1 =>
        obtain ⟨hst, hvis⟩ := h.opens (by rw [entryTaken, hin, hin]; exact h1)
        exact ⟨hst, hvis.trans (by rw [freshVisit, hin]; rfl)⟩
      · next h1 => exact h.idle (by rw [entryTaken, hin, hin]; exact Bool.eq_false_iff.mpr h1)
end

section
/-! SUPPORT. O36: the line record of an input under a force, a raw change and a settle. -/

namespace Sys2Proof.Machine.LineLaws

open Sys2Proof.Machine.VisitLaws

variable {s : State} {l : LaneNo} {i : Input}

/-! ### The line record of an input replaced -/

/-- The part with a line record replaced. -/
def withLine (s : State) (l : LaneNo) (i : Input) (r : LineRec) : State := s.modLine l i fun _ => r

theorem modLine_eq (s : State) (l : LaneNo) (i : Input) (f : LineRec → LineRec) :
    s.modLine l i f = withLine s l i (f (s.line l i)) := rfl

section WithLine
variable (s : State) (l : LaneNo) (i : Input) (r : LineRec)
@[simp] theorem withLine_line : (withLine s l i r).line l i = r := by
  rw [State.line, withLine, State.modLine, State.modLane_lane]
  exact PerInput.get_set_same ..
@[simp] theorem withLine_withLine (q : LineRec) : withLine (withLine s l i r) l i q = withLine s l i q := by
  have hs : ∀ p : PerInput LineRec, (p.set i r).set i q = p.set i q := fun p => by cases i <;> rfl
  simp only [withLine, State.modLine, modLane_eq, State.setLane_lane, setLane_setLane, hs]
end WithLine

/-! ### Settling and forces (R51, R52, R54, R55) -/

/-- A settled value that changes is a conditioned change, or under a force a count (R52, R54). -/
theorem takeSettled_eq (s : State) (l : LaneNo) (i : Input) (on : Bool) : s.takeSettled l i on =
    if (s.line l i).force = none then (withLine s l i ⟨(s.line l i).raw, on, none, none⟩).conditioned l i on
    else (withLine s l i ⟨(s.line l i).raw, on, none, (s.line l i).force⟩).modCounters l fun c =>
      { c with forcedRaw := satInc c.forcedRaw } := by
  unfold State.takeSettled
  rw [modLine_eq]
  cases hf : (s.line l i).force
  · exact (if_pos rfl).symm
  · exact (if_neg nofun).symm

/-- A raw level read against the settled value: the settle ends, goes on, starts, or is at once over (R52). -/
theorem readRaw_eq (s : State) (l : LaneNo) (i : Input) : s.readRaw l i =
    if ((s.line l i).raw != s.activeLow l i) = (s.line l i).settled then withLine s l i { s.line l i with pending := none }
    else if (s.line l i).pending ≠ none then s
    else if s.settleSteps l i ≠ 0 then withLine s l i { s.line l i with pending := some (s.settleSteps l i) }
    else s.takeSettled l i ((s.line l i).raw != s.activeLow l i) := by
  simp only [State.readRaw, Option.isSome_iff_ne_none, ite_not]
  rfl

theorem settleEnds_eq (s : State) (l : LaneNo) (i : Input) : s.settleEnds l i =
    if (s.line l i).pending = none then s else s.takeSettled l i (!(s.line l i).settled) := by
  simp only [State.settleEnds, Option.isSome_iff_ne_none, ite_not]

/-- A force set or removed: a conditioned change only where the conditioned value changes (R54, R55). -/
theorem setForce_eq (s : State) (l : LaneNo) (i : Input) (f : Option Bool) : s.setForce l i f =
    if s.input l i = f.getD (s.line l i).settled then s.modLine l i fun r => { r with force := f }
    else (s.modLine l i fun r => { r with force := f }).conditioned l i (f.getD (s.line l i).settled) := by
  have hv : ((s.modLine l i fun r => { r with force := f }).line l i).value = f.getD (s.line l i).settled := by
    rw [modLine_eq, withLine_line]; rfl
  unfold State.setForce
  simp only [hv, eq_comm (a := f.getD _)]
  rfl

/-- A request that names no lane or no input is refused with RANGE (R54, R55). -/
theorem lineRule_range {n : Nat} {x : Option Input} (h : laneOf n = none ∨ x = none) (rule : LaneNo → Input → Ans) :
    (withLane s n fun l => withInput s x (rule l)) = refuse s .range := by
  cases hl : laneOf n with
  | none => exact withLane_none hl _
  | some l =>
    obtain rfl := h.resolve_left (by rw [hl]; nofun)
    exact withLane_some hl _

theorem lineRule_at {n : Nat} (hl : laneOf n = some l) (rule : LaneNo → Input → Ans) :
    (withLane s n fun l => withInput s (some i) (rule l)) = rule l i := withLane_some hl _

/-! ### A raw level that changes -/

theorem rawLevelChange_same (s : State) (l : LaneNo) (i : Input) :
    exec (.rawLevelChange l i (s.line l i).raw) s = .next s := congrArg Host.Outcome.next (if_pos rfl)

theorem rawLevelChange_reads (hp : s.power = true) {raw : Bool} (h : raw ≠ (s.line l i).raw) :
    exec (.rawLevelChange l i raw) s = .next ((withLine s l i { s.line l i with raw := raw }).readRaw l i) :=
  congrArg Host.Outcome.next ((if_neg h.symm).trans (if_pos hp))

end Sys2Proof.Machine.LineLaws

open Sys2Proof Sys2Proof.Machine Sys2Proof.Machine.VisitLaws Sys2Proof.Machine.LineLaws in
/-- Settles O36: a force by `setForce_eq`, a raw change by `readRaw_eq`, a settle by `settleEnds_eq`. -/
theorem linesSettle : Obligations.LinesSettle := by
  refine ⟨fun s u tag body => ⟨fun n x b hask hn => ?_, fun n x hask hn => ?_⟩, ?_⟩
  · have answers : ∀ {a}, ruleForce u (n, x, b) = a → Answers (.forceLine tag body) s 0x0F tag a.s a.status a.data :=
      fun {_} ha => answers_of_rule rfl hask hn ha
    refine ⟨fun h => answers (lineRule_range h _), ?_⟩
    rintro l i hl rfl u1
    exact answers ((lineRule_at hl _).trans (congrArg okay (setForce_eq u l i (some b))))
  · have answers : ∀ {a}, ruleUnforce u (n, x) = a → Answers (.unforceLine tag body) s 0x10 tag a.s a.status a.data :=
      fun {_} ha => answers_of_rule rfl hask hn ha
    refine ⟨fun h => answers (lineRule_range h _), ?_⟩
    rintro l i hl rfl r u1
    exact answers ((lineRule_at hl _).trans (congrArg okay (setForce_eq u l i none)))
  · intro s l i hp r as counted
    have settle_eq : exec (.settleExpiry l i) s = .next (s.settleEnds l i) := event_powered hp _
    refine ⟨rawLevelChange_same s l i, fun raw hraw => ?_, fun h => ?_, fun h => ?_⟩
    · intro on steps
      rw [rawLevelChange_reads hp hraw, readRaw_eq]
      simp only [withLine_line, withLine_withLine, takeSettled_eq]
      rfl
    · rw [settle_eq, settleEnds_eq, if_pos h]
    · rw [settle_eq, settleEnds_eq, if_neg h, takeSettled_eq]
      rfl
end

section
/-! SUPPORT. O38: the stuck watches and the timers of the barrier's motions as they expire. -/

namespace Sys2Proof.Machine.LineLaws

open Sys2Proof.Machine.VisitLaws

variable {s : State} {l : LaneNo} {m : Motion}

/-! ### LOOP_STUCK_EXPIRY (R57) -/

theorem loopStuckExpiry_eq (hp : s.power = true) (l : LaneNo) (k : Loop) : exec (.loopStuckExpiry l k) s =
    .next (if ((s.lane l).stuck.get k).left.isSome then s.loopStuck l k else s) := event_powered hp _

/-! ### RAISE_TIMER_EXPIRY and LOWER_TIMER_EXPIRY (R63) -/

/-- The event of a motion's timer. -/
def timerExpiry (l : LaneNo) : Motion → Instr
  | .raise => .raiseTimerExpiry l
  | .lower => .lowerTimerExpiry l

/-- The barrier's state while a motion is under way. -/
def movingState : Motion → BarrierState
  | .raise => .raising
  | .lower => .lowering

theorem timerExpiry_eq (hp : s.power = true) (l : LaneNo) (m : Motion) : exec (timerExpiry l m) s =
    .next (if (s.barrier l).state = movingState m ∧ (s.barrier l).left.isSome then s.motionFailed l m else s) := by
  cases m <;> exact event_powered hp _

/-- The barrier in FAULT with its failed motion pending. -/
def failedBarrier (m : Motion) (mark : Bool) : Barrier := ⟨.fault, some m, mark, false, none⟩

/-- The raise of BARRIER_FAULT at a failed motion of a lane. -/
def faultRaise (s : State) (l : LaneNo) (m : Motion) : Raise :=
  ⟨.barrierFault, some l, (s.visit l).map Visit.number, none, match m with | .raise => 1 | .lower => 2, .inspect⟩

/-- A failure in a CLOSED lane without the fault entry mark. -/
theorem motionFailed_closed (hm : (s.barrier l).faultMark = false) (hx : (s.lane l).state = .closed) :
    s.motionFailed l m = withBarrier s l (failedBarrier m false) := by
  unfold State.motionFailed
  rw [modBarrier_eq, hm]
  exact (if_neg Bool.false_ne_true).trans (if_pos hx)

/-- What a raise of BARRIER_FAULT leaves: the mark is set where its entry stands OPEN. -/
def markStanding (l : LaneNo) (r : State × Answer) : State :=
  match r.2 with
  | .openRetry | .openHold => r.1.modBarrier l fun b => { b with faultMark := true }
  | _ => r.1

theorem markStanding_eq (l : LaneNo) (r : State × Answer) : markStanding l r =
    if r.2 = .openRetry ∨ r.2 = .openHold then r.1.modBarrier l fun b => { b with faultMark := true } else r.1 := by
  obtain ⟨t, a⟩ := r
  cases a <;> rfl

/-- A first failure in a lane that is not CLOSED raises BARRIER_FAULT. -/
theorem motionFailed_raises (hm : (s.barrier l).faultMark = false) (hx : (s.lane l).state ≠ .closed) : s.motionFailed l m =
    markStanding l ((withBarrier s l (failedBarrier m false)).raiseExc (faultRaise s l m)) := by
  have hv : faultRaise (withBarrier s l (failedBarrier m false)) l m = faultRaise s l m := by
    unfold faultRaise
    rw [withBarrier_visit]
  unfold State.motionFailed
  rw [modBarrier_eq, hm, ← hv]
  exact (if_neg Bool.false_ne_true).trans (if_neg hx)

/-- Under the fault entry mark the failure is a failure of the standing entry. -/
theorem motionFailed_marked (hm : (s.barrier l).faultMark = true) : s.motionFailed l m =
    match s.exc.entries.find? fun e => e.state == .opened && e.kind == .barrierFault && e.lane == some l with
    | some e => ((withBarrier s l (failedBarrier m true)).reportFailure e.number).1
    | none => withBarrier s l (failedBarrier m true) := by
  unfold State.motionFailed
  rw [modBarrier_eq, hm]
  refine (if_pos rfl).trans ?_
  rw [State.barrierEntry, withBarrier_exc]
  cases s.exc.entries.find? fun e => e.state == .opened && e.kind == .barrierFault && e.lane == some l <;> rfl

end Sys2Proof.Machine.LineLaws

open Sys2Proof Sys2Proof.Machine Sys2Proof.Machine.VisitLaws Sys2Proof.Machine.LineLaws in
/-- Settles O38: a motion's timer by what `motionFailed` comes to, with and without the fault entry mark. -/
theorem timersOfTheLines : Obligations.TimersOfTheLines := by
  intro s l hp x visit
  refine ⟨fun k => ⟨fun h => ?_, fun h => ?_⟩, ?_⟩
  · rw [loopStuckExpiry_eq hp, h]; rfl
  · rw [loopStuckExpiry_eq hp, if_pos (Option.isSome_iff_ne_none.mpr h)]
    cases k <;> rfl
  · intro m i runs failed
    have hi : i = timerExpiry l m := by cases m <;> rfl
    have hr : runs ↔ (s.barrier l).state = movingState m ∧ (s.barrier l).left.isSome := by
      rw [Option.isSome_iff_ne_none]; cases m <;> exact Iff.rfl
    have fails : ∀ {t}, runs → s.motionFailed l m = t → exec i s = .next t := by
      rintro t h rfl
      rw [hi, timerExpiry_eq hp, if_pos (hr.mp h)]
    refine ⟨fun h => ?_, fun h hm hx => fails h (motionFailed_closed hm hx),
      fun h hm hx => fails h ((motionFailed_raises hm hx).trans (markStanding_eq ..)),
      fun h hm => fails h (motionFailed_marked hm)⟩
    rw [hi, timerExpiry_eq hp, if_neg (mt hr.mpr h)]
end

section
/-! SUPPORT. O33 and O45: the nearest of several candidates and the order of the search; the patterns of the Hold List and its two
requests. -/

namespace Sys2Proof.Machine.ReadLaws

open Sys2Proof.Machine.VisitLaws

/-! ### The choice among candidates (R30) -/

/-- A booking comes before another in the choice: its window starts nearer, or as near with no higher number. -/
def Precedes (minute : Nat) (a b : Booking) : Prop :=
  windowDistance minute a.window < windowDistance minute b.window ∨
    windowDistance minute a.window = windowDistance minute b.window ∧ a.number ≤ b.number

theorem Precedes.refl (minute : Nat) (a : Booking) : Precedes minute a a := .inr ⟨rfl, Nat.le_refl _⟩

theorem Precedes.trans {minute : Nat} {a b c : Booking} (h : Precedes minute a b) (k : Precedes minute b c) :
    Precedes minute a c := by
  unfold Precedes at *
  omega

theorem betterBooking_mem (minute : Nat) (a b : Booking) : betterBooking minute a b = a ∨ betterBooking minute a b = b :=
  ite_eq_or_eq ..

theorem betterBooking_precedes (minute : Nat) (a b : Booking) :
    Precedes minute (betterBooking minute a b) a ∧ Precedes minute (betterBooking minute a b) b := by
  unfold betterBooking
  dsimp only
  split <;> unfold Precedes <;> omega

theorem nearest_cons (minute : Nat) (k : Booking) (ks : List Booking) : nearest minute (k :: ks) =
    some (match nearest minute ks with | none => k | some m => betterBooking minute k m) := by
  rw [nearest]
  cases nearest minute ks <;> rfl

theorem nearest_eq_none_iff (minute : Nat) (ks : List Booking) : nearest minute ks = none ↔ ks = [] := by
  cases ks with
  | nil => simp [nearest]
  | cons k ks => simp [nearest_cons]

theorem nearest_spec {minute : Nat} {ks : List Booking} {k : Booking} (h : nearest minute ks = some k) :
    k ∈ ks ∧ ∀ j ∈ ks, Precedes minute k j := by
  induction ks generalizing k with
  | nil => cases h
  | cons a ks ih =>
    rw [nearest_cons] at h
    cases hn : nearest minute ks with
    | none =>
      rw [hn] at h
      cases h
      rw [(nearest_eq_none_iff minute ks).mp hn]
      simp [Precedes.refl]
    | some m =>
      rw [hn] at h
      cases h
      obtain ⟨hm, hall⟩ := ih hn
      obtain ⟨ha, hb⟩ := betterBooking_precedes minute a m
      refine ⟨?_, fun j hj => ?_⟩
      · rcases betterBooking_mem minute a m with e | e <;> simp [e, hm]
      · rcases List.mem_cons.mp hj with rfl | hj
        · exact ha
        · exact hb.trans (hall j hj)

/-- The distance of a window's start from the minute, as a whole number's absolute value. -/
theorem windowDistance_abs (minute window : Nat) :
    (windowDistance minute window : Int) = |30 * (window : Int) - (minute : Int)| := by
  unfold windowDistance
  rcases abs_cases (30 * (window : Int) - (minute : Int)) with ⟨h, _⟩ | ⟨h, _⟩ <;> omega

/-- The candidate of an ID: a live booking if there is one, else one that did not show. -/
theorem cidCandidate_eq (b : BookUnit) (minute : Nat) (t : Text) : cidCandidate b minute t =
    let all := b.table.filter fun k => k.bringsIn t
    let live := all.filter fun k => k.state == .opened || k.state == .inLane
    if live = [] then nearest minute (all.filter fun k => k.state == .noShow) else nearest minute live := by
  unfold cidCandidate
  dsimp only
  split
  · next k hk =>
    rw [if_neg]
    · exact hk.symm
    · intro h
      rw [(nearest_eq_none_iff ..).mpr h] at hk
      cases hk
  · next h => rw [if_pos ((nearest_eq_none_iff ..).mp h)]

/-! ### Patterns (R80) -/

theorem patternMatches_nil (t : Text) : patternMatches [] t = true ↔ t = [] := by
  cases t <;> simp [patternMatches]

/-- A character of a pattern other than a final * takes one character of the text. -/
theorem patternMatches_cons {x : Byte} {p : Text} (h : ¬(x = 42 ∧ p = [])) (t : Text) :
    patternMatches (x :: p) t = true ↔ ∃ y u, t = y :: u ∧ (x = 63 ∨ x = y) ∧ patternMatches p u = true := by
  rw [patternMatches.eq_def]
  dsimp only
  rw [if_neg h]
  cases t <;> simp

theorem patternMatches_exact {p : Text} (h : 42 ∉ p) (t : Text) :
    patternMatches p t = true ↔ List.Forall₂ (fun x y : Byte => x = 63 ∨ x = y) p t := by
  induction p generalizing t with
  | nil => rw [patternMatches_nil, List.forall₂_nil_left_iff]
  | cons x p ih =>
    obtain ⟨hx, hp⟩ := List.ne_and_not_mem_of_not_mem_cons h
    rw [patternMatches_cons (fun e => hx e.1.symm), List.forall₂_cons_left_iff]
    constructor
    · rintro ⟨y, u, rfl, hxy, hm⟩
      exact ⟨y, u, hxy, (ih hp u).mp hm, rfl⟩
    · rintro ⟨y, u, hxy, hm, rfl⟩
      exact ⟨y, u, rfl, hxy, (ih hp u).mpr hm⟩

theorem patternMatches_star {p : Text} (h : 42 ∉ p) (t : Text) : patternMatches (p ++ [42]) t = true ↔
    ∃ a b, t = a ++ b ∧ List.Forall₂ (fun x y : Byte => x = 63 ∨ x = y) p a := by
  induction p generalizing t with
  | nil =>
    have hm : patternMatches [42] t = true := by rw [patternMatches.eq_def]; exact if_pos ⟨rfl, rfl⟩
    exact iff_of_true hm ⟨[], t, rfl, .nil⟩
  | cons x p ih =>
    obtain ⟨hx, hp⟩ := List.ne_and_not_mem_of_not_mem_cons h
    rw [List.cons_append, patternMatches_cons (fun e => hx e.1.symm)]
    constructor
    · rintro ⟨y, u, rfl, hxy, hm⟩
      obtain ⟨a, b, rfl, hf⟩ := (ih hp u).mp hm
      exact ⟨y :: a, b, rfl, .cons hxy hf⟩
    · rintro ⟨_, b, rfl, hf⟩
      obtain ⟨y, a, hxy, hfa, rfl⟩ := List.forall₂_cons_left_iff.mp hf
      exact ⟨y, a ++ b, rfl, hxy, (ih hp _).mpr ⟨a, b, rfl, hfa⟩⟩

/-! ### HOLD_ADD and HOLD_REMOVE (R81, R82) -/

theorem names_iff (h : HoldEntry) (k : HoldKind) (p : Text) : h.names k p = true ↔ h.kind = k ∧ h.pattern = p := by
  simp [HoldEntry.names]

theorem any_names_iff (hs : List HoldEntry) (k : HoldKind) (p : Text) :
    (hs.any fun h => h.names k p) = true ↔ ∃ h ∈ hs, h.kind = k ∧ h.pattern = p := by
  simp only [List.any_eq_true, names_iff]

/-- A reason code is read from one byte. -/
theorem readHoldAdd_reason {body : List Byte} {e : HoldEntry} (h : readAll readHoldAdd body = some e) : e.reason ≤ 255 := by
  have key : ∀ bs x rest, readHoldAdd bs = some (x, rest) → x.reason ≤ 255 := by
    intro bs x rest hx
    simp only [readHoldAdd, Option.bind_eq_bind, Option.pure_def, Option.bind_eq_some_iff, Option.some.injEq,
      Prod.mk.injEq] at hx
    obtain ⟨_, -, _, -, _, -, ⟨r, _⟩, hr, rfl, -⟩ := hx
    unfold readU8 at hr
    split at hr
    · cases hr; exact Nat.le_of_lt_succ (BitVec.isLt _)
    · cases hr
  unfold readAll at h
  split at h
  · next hx => cases h; exact key _ _ _ hx
  · cases h

end Sys2Proof.Machine.ReadLaws

open Sys2Proof Sys2Proof.Machine Sys2Proof.Machine.ReadLaws in
/-- Settles O33: the nearest booking precedes all others, and the search tries its four keys in turn. -/
theorem candidatesInOrder : Obligations.CandidatesInOrder := by
  refine ⟨fun minute ks => ⟨nearest_eq_none_iff minute ks, fun k hk => ?_⟩, fun b minute v => ?_⟩
  · obtain ⟨hmem, hall⟩ := nearest_spec hk
    refine ⟨hmem, fun j hj => ?_⟩
    have h := hall j hj
    dsimp only
    rw [← windowDistance_abs, ← windowDistance_abs]
    unfold Precedes at h
    omega
  · intro keyed byCid byPlate
    have hcid : byCid = cidCandidate b minute := by
      funext t
      exact (cidCandidate_eq b minute t).symm
    rw [hcid]
    show (keyed <|> v.front.cid.bind (cidCandidate b minute) <|> v.rear.cid.bind (cidCandidate b minute)
      <|> v.plate.bind byPlate) = _
    rcases keyed with _ | k
    · rcases v.front.cid.bind (cidCandidate b minute) with _ | k
      · rcases v.rear.cid.bind (cidCandidate b minute) with _ | k <;> rfl
      · rfl
    · rfl

open Sys2Proof Sys2Proof.Machine Sys2Proof.Machine.VisitLaws Sys2Proof.Machine.ReadLaws in
/-- Settles O45: how patterns match, and each request by its tests in order. -/
theorem holdListIsKept : Obligations.HoldListIsKept := by
  refine ⟨fun p t hp => ⟨patternMatches_exact hp t, patternMatches_star hp t⟩,
    fun s u tag body => ⟨fun e hask he => ?_, fun k p hask hr => ?_⟩⟩
  · have answers : ∀ {a}, ruleHoldAdd u e = a → Answers (.holdAdd tag body) s 0x15 tag a.s a.status a.data :=
      fun {_} ha => answers_of_rule rfl hask he ha
    have hreason := readHoldAdd_reason he
    have hany := any_names_iff u.holds e.kind e.pattern
    unfold ruleHoldAdd at answers
    rw [if_neg (by omega : ¬255 < e.reason)] at answers
    dsimp only
    split_ifs with hok hdup hfull
    · exact answers (if_pos hok)
    · exact answers ((if_neg hok).trans (if_pos (hany.mpr hdup)))
    · exact answers ((if_neg hok).trans ((if_neg (mt hany.mp hdup)).trans (if_pos hfull)))
    · have h := answers ((if_neg hok).trans ((if_neg (mt hany.mp hdup)).trans (if_neg hfull)))
      dsimp only at h
      rw [List.length_append] at h
      exact h
  · have answers : ∀ {a}, ruleHoldRemove u (k, p) = a → Answers (.holdRemove tag body) s 0x16 tag a.s a.status a.data :=
      fun {_} ha => answers_of_rule rfl hask hr ha
    have hany := any_names_iff u.holds k p
    unfold ruleHoldRemove at answers
    dsimp only
    split_ifs with hok hnamed
    · exact answers (if_pos hok)
    · refine ⟨u.holds.filter fun h => !h.names k p,
        answers ((if_neg hok).trans (if_pos (hany.mpr hnamed))), List.filter_sublist, fun h => ?_⟩
      rw [List.mem_filter, Bool.not_eq_true', ← names_iff, Bool.not_eq_true]
    · exact answers ((if_neg hok).trans (if_neg (mt hany.mp hnamed)))
end

section
/-! SUPPORT. O40: PLATE_READ, and the watch test's hit raised with room in the Exception Table (R68, R83). -/

namespace Sys2Proof.Machine.ReadLaws

open Sys2Proof.Machine.VisitLaws

variable {s t : State} {l : LaneNo} {v : Visit}

/-! ### Reads taken (R38) -/

theorem takenRead_refused (h : (s.lane l).takesReads = false) (rule : Unit → Ans) :
    takenRead s l rule = refuse s .notApplied := if_neg (by simp [h])

theorem takenRead_taken (h : (s.lane l).takesReads = true) (rule : Unit → Ans) : takenRead s l rule = rule () := if_pos h

theorem isClaimed_eq (hv : s.visit l = some v) : s.isClaimed l = v.claimed.isSome := by
  rw [State.isClaimed, hv]
  rfl

/-- A lane that takes reads is in service. -/
theorem takesReads_open (h : (s.lane l).takesReads = true) : (s.lane l).state ≠ .closed := by
  intro hc
  rw [Lane.takesReads, Lane.under, hc] at h
  cases h

/-- The conditions for the verdict are tested in CHECKING alone (R124). -/
theorem settle_of_not_checking (h : (s.lane l).state ≠ .checking) : s.settle l = s := by
  unfold State.settle
  split
  · next hc _ => exact absurd hc h
  · rfl

/-! ### The watch test (R83) -/

theorem watchTest_marked {i : Identity} (hv : s.visit l = some v) (hm : v.watchMark i ≠ none) : s.watchTest l i = s := by
  rw [State.watchTest, hv]
  dsimp only
  split
  · next h => exact absurd h hm
  · rfl

theorem watchTest_clean {i : Identity} {x : Text} (hv : s.visit l = some v) (hi : v.identity i = some x)
    (hh : matchHold s.holds i.kind x = none) : s.watchTest l i = s := by
  rw [State.watchTest, hv]
  dsimp only
  rw [hi]
  split
  · next h _ => cases h; rw [hh]
  · rfl

theorem watchTest_hit {i : Identity} {x : Text} {h : HoldEntry} (hv : s.visit l = some v) (hi : v.identity i = some x)
    (hm : v.watchMark i = none) (hh : matchHold s.holds i.kind x = some h) : s.watchTest l i =
      (((s.raiseExc ⟨.watchHit, some l, some v.number, i.pos, h.reason, h.action⟩).1.modVisit l
        fun v => v.setWatch i ⟨h.action, h.reason⟩).evaluate l .watch) := by
  simp only [State.watchTest, hv, hi, hm, hh]

/-- An evaluation changes the checks of a visit alone. -/
theorem evaluate_checks (v : Visit) (ms : List Move) (n : CheckName) (a : Bool) :
    v.evaluate ms n a = { v with checks := (v.evaluate ms n a).checks } := by
  unfold Visit.evaluate
  split <;> rfl

/-- The response of a WATCH_HIT follows the action of the Hold List entry (section 10.2). -/
def watchResponse (a : WatchAction) : Response := if a = .hold then .hold else .note

/-- What the raise of a WATCH_HIT shows, stored with room. -/
structure WatchRaised (s : State) (l : LaneNo) (e : Entry) (a : WatchAction) (t : State) : Prop where
  state : (t.lane l).state = if a = .hold then .trouble else (s.lane l).state
  plate : (t.visit l).map Visit.plate = (s.visit l).map Visit.plate
  entries : t.exc.entries.getLast? = some e
  book : t.book = s.book
  holds : t.holds = s.holds

theorem stored_holds (s : State) (r : Raise) (resp : Response) : (stored s r resp).holds = s.holds := by simp [stored]

theorem enterTrouble_holds (s : State) (l : LaneNo) : (s.enterTrouble l).holds = s.holds := by
  simp only [State.enterTrouble]
  split
  · rfl
  · rw [changeLane_link]; rfl

theorem watchRaise_shows (hs : Stores s) (hv : s.visit l = some v) (hc : (s.lane l).state ≠ .closed)
    (ho : v.checks.watch.override = none) (reason : Nat) (a : WatchAction) :
    WatchRaised s l ⟨s.exc.next, .watchHit, some l, some v.number, none, reason, s.clock.minute, watchResponse a, 0,
        if a = .hold then .opened else .logged, none, none, false⟩ a
      (s.raiseExc ⟨.watchHit, some l, some v.number, none, reason, a⟩).1 := by
  have hover : s.raiseOverridden ⟨.watchHit, some l, some v.number, none, reason, a⟩ = false := by
    simp [State.raiseOverridden, checkOf, hv, Checks.get, ho]
  rw [raiseExc_stored hs hover (resp := watchResponse a) rfl]
  cases a with
  | inspect => exact ⟨by simp [raised, watchResponse], by simp [raised, watchResponse],
      by simp [raised, watchResponse, State.newEntry], by simp [raised, watchResponse], stored_holds ..⟩
  | hold =>
    have hh := (enterTrouble_holds (stored s ⟨.watchHit, some l, some v.number, none, reason, .hold⟩ .hold) l).trans
      (stored_holds ..)
    by_cases ht : (s.lane l).state = .trouble
    · have he : (stored s ⟨.watchHit, some l, some v.number, none, reason, .hold⟩ .hold).enterTrouble l = stored s _ .hold :=
        if_pos (.inr (by simpa using ht))
      simp only [raised, watchResponse, if_pos]
      rw [he] at hh ⊢
      exact ⟨by simpa using ht, by simp, by simp [State.newEntry], by simp, hh⟩
    · have k := enterTrouble_shows (s := stored s ⟨.watchHit, some l, some v.number, none, reason, .hold⟩ .hold) (l := l)
        (by simpa using hc) (by simpa using ht)
      refine ⟨k.state, (congrArg _ k.visit).trans ?_, (congrArg List.getLast? k.entries).trans ?_, k.book.trans (by simp), hh⟩
      · rw [stored_visit, hv]; rfl
      · simp [State.newEntry, watchResponse]

/-! ### The plate recorded (R68) -/

theorem recordPlate_same {x : Text} (hv : s.visit l = some v) (h : v.plate = some x) : s.recordPlate l x = s :=
  if_pos (by simp [hv, h])

theorem recordPlate_changed {x : Text} (hv : s.visit l = some v) (h : v.plate ≠ some x) :
    s.recordPlate l x = (withVisit s l { v with plate := some x }).watchTest l .plate :=
  (if_neg (by simp [hv, h])).trans (by rw [modVisit_withVisit hv])

/-- The rule of PLATE_READ at a lane that takes the read before the claim. -/
theorem rulePlate_taken {n : Nat} {x : Text} (hl : laneOf n = some l) (hp : plateOk x = true)
    (ht : (s.lane l).takesReads = true) (hc : s.isClaimed l = false) :
    rulePlate s (n, x) = ⟨(s.recordPlate l x).settle l, .ok, [0]⟩ :=
  (withLane_some hl _).trans ((if_neg (by simp [hp])).trans ((takenRead_taken ht _).trans (if_neg (by simp [hc]))))

end Sys2Proof.Machine.ReadLaws

open Sys2Proof Sys2Proof.Machine Sys2Proof.Machine.VisitLaws Sys2Proof.Machine.ReadLaws in
/-- Settles O40: the tests in order, then the recorded plate by what its watch test finds. -/
theorem platesAreRead : Obligations.PlatesAreRead := by
  intro s u tag body n p hask hr
  have answers : ∀ {a}, rulePlate u (n, p) = a → Answers (.plateRead tag body) s 0x11 tag a.s a.status a.data :=
    fun {_} ha => answers_of_rule rfl hask hr ha
  refine ⟨fun hl => answers (withLane_none hl _), fun l hl => ?_⟩
  have rule := withLane_some (s := u) hl
  refine ⟨fun hp => answers ((rule _).trans (if_pos hp)),
    fun hp ht => answers ((rule _).trans ((if_neg (by simp [hp])).trans (takenRead_refused ht _))), fun hp ht v hv => ?_⟩
  have hclaimed := isClaimed_eq (s := u) (l := l) hv
  refine ⟨fun hc => answers ((rule _).trans ((if_neg (by simp [hp])).trans ((takenRead_taken ht _).trans (if_pos ?_)))),
    fun hc hx => ?_⟩
  · rw [hclaimed]
    exact Option.isSome_iff_ne_none.mpr hc
  have taken := fun {t : State} (h : (u.recordPlate l p).settle l = t) => answers
    ((rulePlate_taken hl hp ht (by rw [hclaimed, hc]; rfl)).trans (congrArg (Ans.mk · Status.ok [0]) h))
  let y : Visit := { v with plate := some p }
  have hy : (withVisit u l y).visit l = some y := withVisit_visit ..
  have hstate : ((withVisit u l y).lane l).state = (u.lane l).state := by rw [withVisit_lane]
  refine ⟨fun h => taken ?_, fun h hm => taken ?_, fun h hm e he hlen hnext ho => ?_⟩
  · rw [recordPlate_same hv h, settle_of_not_checking hx]
  · have htest : (withVisit u l y).watchTest l .plate = withVisit u l y :=
      hm.elim (fun k => watchTest_marked (i := .plate) hy k) fun k => watchTest_clean (i := .plate) hy (x := p) rfl k
    rw [recordPlate_changed hv h, htest, settle_of_not_checking (hstate ▸ hx)]
    rfl
  · have k := watchRaise_shows (s := withVisit u l y) (v := y) (by rw [Stores, withVisit_exc]; exact ⟨hlen, hnext⟩) hy
      (hstate ▸ takesReads_open ht) ho e.reason e.action
    have hset := recordPlate_changed hv h
    rw [watchTest_hit (i := .plate) hy (x := p) rfl hm he, show Identity.pos .plate = none from rfl] at hset
    refine ⟨_, taken (settle_of_not_checking ?_), ?_⟩
    · rw [hset, State.evaluate, State.modVisit_lane, State.modVisit_lane]
      refine k.state.symm ▸ ?_
      split
      · decide
      · exact hstate ▸ hx
    · obtain ⟨z, hz, hzp⟩ := Option.map_eq_some_iff.mp (k.plate.trans (congrArg _ hy))
      rw [hset, State.evaluate, State.modVisit_lane, State.modVisit_lane, State.modVisit_visit, State.modVisit_visit]
      refine ⟨?_, k.entries.trans ?_, k.state.trans ?_, k.book, k.holds⟩
      · rw [hz, Option.map_some, Option.map_some, Option.map_some, evaluate_checks]
        exact congrArg (fun x => some (x, some _)) hzp
      · rw [withVisit_exc, withVisit_clock]
        cases e.action <;> rfl
      · rw [hstate]
        cases e.action <;> rfl
end

section
/-! SUPPORT. What the acts on a lane's visit keep, up to and with the forming of the verdict (`Keeps`): what a view of the
positions shows, the claim, the overrides and the books, and, with room for them, every entry and notice that stands. -/

namespace Sys2Proof.Machine.ReadLaws

open Sys2Proof.Machine.VisitLaws

variable {s t u : State} {l : LaneNo} {v w x : Visit} {α : Type} {φ : Pos → PosRec → α} {j k : Nat}

/-! ### Visits -/

/-- A visit goes on as another: its number, claim and overrides, and what the view `φ` shows of its positions; a wait that does
not run is not started. -/
structure VisitKept (φ : Pos → PosRec → α) (v w : Visit) : Prop where
  number : w.number = v.number
  claimed : w.claimed = v.claimed
  override : ∀ n, (w.checks.get n).override = (v.checks.get n).override
  pos : ∀ p, φ p (w.pos p) = φ p (v.pos p)
  sealWait : w.sealWait = none ∨ w.sealWait = v.sealWait
  surveyWait : w.surveyWait = none ∨ w.surveyWait = v.surveyWait

theorem VisitKept.refl (φ : Pos → PosRec → α) (v : Visit) : VisitKept φ v v :=
  ⟨rfl, rfl, fun _ => rfl, fun _ => rfl, .inr rfl, .inr rfl⟩

theorem none_or_trans {β : Type} {a b c : Option β} (h : b = none ∨ b = a) (k : c = none ∨ c = b) : c = none ∨ c = a := by
  rcases k with k | rfl
  · exact .inl k
  · exact h

theorem VisitKept.trans (h : VisitKept φ v w) (k : VisitKept φ w x) : VisitKept φ v x where
  number := k.number.trans h.number
  claimed := k.claimed.trans h.claimed
  override n := (k.override n).trans (h.override n)
  pos p := (k.pos p).trans (h.pos p)
  sealWait := none_or_trans h.sealWait k.sealWait
  surveyWait := none_or_trans h.surveyWait k.surveyWait

/-- A visit changed in none of its positions and overrides. -/
theorem VisitKept.of_parts (hn : w.number = v.number) (hc : w.claimed = v.claimed)
    (ho : ∀ n, (w.checks.get n).override = (v.checks.get n).override) (hf : w.front = v.front) (hr : w.rear = v.rear)
    (hs : w.sealWait = none ∨ w.sealWait = v.sealWait) (hy : w.surveyWait = none ∨ w.surveyWait = v.surveyWait) :
    VisitKept φ v w :=
  ⟨hn, hc, ho, fun p => by cases p <;> simp only [Visit.pos, hf, hr], hs, hy⟩

theorem take_set_override (c : Checks) (n m : CheckName) (o : Outcome) :
    ((c.set n ((c.get n).take o)).get m).override = (c.get m).override := by
  by_cases h : m = n
  · subst h; rw [Checks.get_set_same, take_override]
  · rw [Checks.get_set_other _ _ h]

theorem evaluate_override (v : Visit) (ms : List Move) (n m : CheckName) (a : Bool) :
    ((v.evaluate ms n a).checks.get m).override = (v.checks.get m).override := by
  unfold Visit.evaluate
  split
  · rfl
  · exact take_set_override ..

theorem VisitKept.evaluate (φ : Pos → PosRec → α) (v : Visit) (ms : List Move) (n : CheckName) (a : Bool) :
    VisitKept φ v (v.evaluate ms n a) := by
  rw [evaluate_checks]
  exact .of_parts rfl rfl (fun m => evaluate_override v ms n m a) rfl rfl (.inr rfl) (.inr rfl)

theorem VisitKept.setPos {p : Pos} {r : PosRec} (h : φ p r = φ p (v.pos p)) : VisitKept φ v (v.setPos p r) := by
  cases p
  · exact ⟨rfl, rfl, fun _ => rfl, fun q => by cases q; exacts [h, rfl], .inr rfl, .inr rfl⟩
  · exact ⟨rfl, rfl, fun _ => rfl, fun q => by cases q; exacts [rfl, h], .inr rfl, .inr rfl⟩

/-- The view does not see the watch marks. -/
def WatchBlind (φ : Pos → PosRec → α) : Prop := ∀ p r w, φ p { r with watch := w } = φ p r

theorem VisitKept.setWatch (hφ : WatchBlind φ) (v : Visit) (i : Identity) (m : Watch) : VisitKept φ v (v.setWatch i m) := by
  cases i with
  | plate => exact .of_parts rfl rfl (fun _ => rfl) rfl rfl (.inr rfl) (.inr rfl)
  | front =>
    unfold Visit.setWatch
    dsimp only
    split
    · exact (VisitKept.setPos (p := .front) (r := { v.front with watch := some m }) (hφ ..)).trans
        (.setPos (p := .rear) (r := { v.rear with watch := some m }) (hφ ..))
    · exact .setPos (p := .front) (r := { v.front with watch := some m }) (hφ ..)
  | rear => exact .setPos (p := .rear) (r := { v.rear with watch := some m }) (hφ ..)

theorem VisitKept.stilled (φ : Pos → PosRec → α) (v : Visit) : VisitKept φ v (stilled v) :=
  .of_parts rfl rfl (fun _ => rfl) rfl rfl (.inl rfl) (.inl rfl)

/-! ### Lanes, the Exception Table and the link -/

/-- A lane goes on with its visit: in service if it was, in TROUBLE if it was, its reads counted no further. -/
structure LaneKept (φ : Pos → PosRec → α) (x y : Lane) : Prop where
  visit : ∀ v, x.visit = some v → ∃ w, y.visit = some w ∧ VisitKept φ v w
  opened : x.state ≠ .closed → y.state ≠ .closed
  trouble : x.state = .trouble → y.state = .trouble
  misreads : y.counters.misreads = x.counters.misreads
  duplicates : y.counters.duplicates = x.counters.duplicates

theorem LaneKept.trans {x y z : Lane} (h : LaneKept φ x y) (k : LaneKept φ y z) : LaneKept φ x z where
  visit v hv := by
    obtain ⟨w, hw, hvw⟩ := h.visit v hv
    obtain ⟨u, hu, hwu⟩ := k.visit w hw
    exact ⟨u, hu, hvw.trans hwu⟩
  opened hx := k.opened (h.opened hx)
  trouble hx := k.trouble (h.trouble hx)
  misreads := k.misreads.trans h.misreads
  duplicates := k.duplicates.trans h.duplicates

theorem LaneKept.refl (φ : Pos → PosRec → α) (x : Lane) : LaneKept φ x x :=
  ⟨fun v hv => ⟨v, hv, .refl φ v⟩, id, id, rfl, rfl⟩

/-- What an entry tells of its case, whatever becomes of it. -/
def story (e : Entry) : Nat × ExcKind × Option LaneNo × Option Nat × Option Pos × Nat × Response :=
  (e.number, e.kind, e.lane, e.visit, e.pos, e.detail, e.response)

/-- The table has room for so many more entries. -/
def Room (j : Nat) (x : ExcTable) : Prop := x.entries.length + j ≤ 32 ∧ x.next + j ≤ 65536

theorem Room.mono {x : ExcTable} (h : Room k x) (hj : j ≤ k) : Room j x := by
  unfold Room at *
  omega

/-- The table after at most `k` raises: with room for them every entry stands. -/
structure TableKept (k : Nat) (l : LaneNo) (x y : ExcTable) : Prop where
  next : x.next ≤ y.next
  unrecorded : x.unrecorded.get l = true → y.unrecorded.get l = true
  room : ∀ j, Room (j + k) x → Room j y ∧ ∀ e ∈ x.entries, ∃ d ∈ y.entries, story d = story e

theorem TableKept.trans {x y z : ExcTable} (h : TableKept j l x y) (i : TableKept k l y z) : TableKept (j + k) l x z where
  next := h.next.trans i.next
  unrecorded hu := i.unrecorded (h.unrecorded hu)
  room m hm := by
    obtain ⟨hy, hxy⟩ := h.room (m + k) (hm.mono (by omega))
    obtain ⟨hz, hyz⟩ := i.room m hy
    refine ⟨hz, fun e he => ?_⟩
    obtain ⟨d, hd, hde⟩ := hxy e he
    obtain ⟨c, hc, hcd⟩ := hyz d hd
    exact ⟨c, hc, hcd.trans hde⟩

theorem TableKept.map {x y : ExcTable} (f : Entry → Entry) (hf : ∀ e, story (f e) = story e)
    (he : y.entries = x.entries.map f) (hn : y.next = x.next) (hu : y.unrecorded = x.unrecorded) : TableKept 0 l x y where
  next := hn.ge
  unrecorded h := hu ▸ h
  room j hj := by
    refine ⟨by unfold Room at *; rwa [he, hn, List.length_map], fun e h => ⟨f e, ?_, hf e⟩⟩
    rw [he]
    exact List.mem_map_of_mem h

theorem TableKept.same {x y : ExcTable} (he : y.entries = x.entries) (hn : y.next = x.next)
    (hu : x.unrecorded.get l = true → y.unrecorded.get l = true) : TableKept 0 l x y where
  next := hn.ge
  unrecorded := hu
  room j hj := ⟨by unfold Room at *; rwa [he, hn], fun e h => ⟨e, he ▸ h, rfl⟩⟩

theorem room_stores {x : ExcTable} (h : Room (j + 1) x) : x.room = some (x.entries, false) := by
  obtain ⟨hlen, hnext⟩ := h
  rw [ExcTable.room, if_neg (by omega)]
  exact if_pos (by unfold Config.entryMax; omega)

/-- One more entry stored in the table's room. -/
theorem TableKept.store {x y : ExcTable} {es : List Entry} {b : Bool} {e : Entry} (hr : x.room = some (es, b))
    (he : y.entries = es ++ [e]) (hn : y.next = x.next + 1) (hu : y.unrecorded = x.unrecorded) : TableKept 1 l x y where
  next := by omega
  unrecorded h := hu ▸ h
  room j hj := by
    rw [room_stores hj, Option.some.injEq, Prod.mk.injEq] at hr
    obtain ⟨rfl, -⟩ := hr
    refine ⟨?_, fun d hd => ⟨d, by rw [he]; exact List.mem_append_left _ hd, rfl⟩⟩
    unfold Room at *
    rw [he, hn, List.length_append, List.length_singleton]
    omega

/-! ### The part -/

/-- What the acts on a lane's visit keep, with at most `k` raises among them. -/
structure Keeps (φ : Pos → PosRec → α) (k : Nat) (l : LaneNo) (s t : State) : Prop where
  lane : LaneKept φ (s.lane l) (t.lane l)
  book : t.book = s.book
  store : t.store = s.store
  bays : t.pool.bays.length = s.pool.bays.length
  exc : TableKept k l s.exc t.exc
  outbox : ∀ m ∈ s.link.outbox, m ∈ t.link.outbox

theorem Keeps.refl (φ : Pos → PosRec → α) (l : LaneNo) (s : State) : Keeps φ 0 l s s :=
  ⟨.refl .., rfl, rfl, rfl, .same rfl rfl id, fun _ hm => hm⟩

theorem Keeps.trans (h : Keeps φ j l s t) (i : Keeps φ k l t u) : Keeps φ (j + k) l s u where
  lane := h.lane.trans i.lane
  book := i.book.trans h.book
  store := i.store.trans h.store
  bays := i.bays.trans h.bays
  exc := h.exc.trans i.exc
  outbox m hm := i.outbox m (h.outbox m hm)

theorem Keeps.mono (h : Keeps φ j l s t) (hj : j ≤ k) : Keeps φ k l s t where
  lane := h.lane
  book := h.book
  store := h.store
  bays := h.bays
  exc := ⟨h.exc.next, h.exc.unrecorded, fun m hm =>
    have ⟨hr, he⟩ := h.exc.room (m + (k - j)) (hm.mono (by omega))
    ⟨hr.mono (by omega), he⟩⟩
  outbox := h.outbox

theorem Keeps.ite {c : Prop} [Decidable c] (h : Keeps φ k l s t) (i : Keeps φ k l s u) :
    Keeps φ k l s (if c then t else u) := by
  split
  · exact h
  · exact i

theorem Keeps.dite {c : Prop} [Decidable c] (h : c → Keeps φ k l s t) (i : ¬c → Keeps φ k l s u) :
    Keeps φ k l s (if c then t else u) := by
  split
  · next hc => exact h hc
  · next hc => exact i hc

/-- The same, told of the first of a pair. -/
theorem Keeps.pair {β : Type} {b : β} (h : Keeps φ k l s t) : Keeps φ k l s (t, b).1 := h

theorem Keeps.setLane (h : Keeps φ k l s t) (hb : u.book = t.book) (hs : u.store = t.store) (hp : u.pool = t.pool)
    (he : u.exc = t.exc) (hk : u.link = t.link) (hl : LaneKept φ (t.lane l) (u.lane l)) : Keeps φ k l s u :=
  h.trans (k := 0) ⟨hl, hb, hs, by rw [hp], he ▸ .same rfl rfl id, hk ▸ fun _ hm => hm⟩

theorem Keeps.setExc (h : Keeps φ k l s t) {x : ExcTable} (hx : TableKept j l t.exc x) :
    Keeps φ (k + j) l s { t with exc := x } :=
  h.trans ⟨.refl .., rfl, rfl, rfl, hx, fun _ hm => hm⟩

theorem Keeps.setPool (h : Keeps φ k l s t) {p : BayPool} (hp : p.bays.length = t.pool.bays.length) :
    Keeps φ k l s { t with pool := p } :=
  h.trans (k := 0) ⟨.refl .., rfl, rfl, hp, .same rfl rfl id, fun _ hm => hm⟩

/-! ### The lane's record -/

theorem LaneKept.record {x y : Lane} (hv : y.visit = x.visit) (hs : y.state = x.state)
    (hm : y.counters.misreads = x.counters.misreads) (hd : y.counters.duplicates = x.counters.duplicates) :
    LaneKept φ x y :=
  ⟨fun v h => ⟨v, hv.trans h, .refl φ v⟩, fun h => hs ▸ h, fun h => hs ▸ h, hm, hd⟩

theorem Keeps.modBarrier (h : Keeps φ k l s t) (f : Barrier → Barrier) : Keeps φ k l s (t.modBarrier l f) :=
  h.setLane rfl rfl rfl rfl rfl (by rw [(ArmTo.modBarrier t l f).lane]; exact .record rfl rfl rfl rfl)

theorem Keeps.modSign (h : Keeps φ k l s t) (f : Sign → Sign) : Keeps φ k l s (t.modSign l f) :=
  h.setLane rfl rfl rfl rfl rfl (by rw [State.modSign, State.modLane_lane]; exact .record rfl rfl rfl rfl)

theorem Keeps.modCounters (h : Keeps φ k l s t) {f : LaneCounters → LaneCounters}
    (hm : ∀ c, (f c).misreads = c.misreads := by exact fun _ => rfl)
    (hd : ∀ c, (f c).duplicates = c.duplicates := by exact fun _ => rfl) : Keeps φ k l s (t.modCounters l f) :=
  h.setLane rfl rfl rfl rfl rfl (by rw [State.modCounters, State.modLane_lane]; exact .record rfl rfl (hm _) (hd _))

theorem LaneKept.modVisit (x : Lane) {f : Visit → Visit} (hf : ∀ v, VisitKept φ v (f v)) : LaneKept φ x (x.modVisit f) :=
  ⟨fun v hv => ⟨f v, by rw [Lane.modVisit_visit, hv]; rfl, hf v⟩, id, id, rfl, rfl⟩

theorem Keeps.modVisit (h : Keeps φ k l s t) {f : Visit → Visit} (hf : ∀ v, VisitKept φ v (f v) := by
    exact fun _ => .of_parts rfl rfl (fun _ => rfl) rfl rfl (.inr rfl) (.inr rfl)) : Keeps φ k l s (t.modVisit l f) :=
  h.setLane rfl rfl rfl rfl rfl (by rw [State.modVisit_lane]; exact .modVisit _ hf)

/-- A change told of the visit that is there. -/
theorem Keeps.modVisit_of (h : Keeps φ k l s t) (hv : t.visit l = some v) {f : Visit → Visit} (hf : VisitKept φ v (f v)) :
    Keeps φ k l s (t.modVisit l f) := by
  have hl : (t.lane l).visit = some v := hv
  refine h.setLane rfl rfl rfl rfl rfl ?_
  rw [State.modVisit_lane]
  refine ⟨fun w hw => ⟨f v, by rw [Lane.modVisit_visit, hl]; rfl, ?_⟩, id, id, rfl, rfl⟩
  obtain rfl : v = w := Option.some.inj (hl.symm.trans hw)
  exact hf

theorem Keeps.modPos (h : Keeps φ k l s t) {p : Pos} {f : PosRec → PosRec} (hf : ∀ r, φ p (f r) = φ p r) :
    Keeps φ k l s (t.modPos l p f) := h.modVisit fun _ => .setPos (hf _)

theorem Keeps.evaluate (h : Keeps φ k l s t) (n : CheckName) (a : Bool := false) : Keeps φ k l s (t.evaluate l n a) :=
  h.modVisit fun v => .evaluate φ v _ n a

/-! ### Notices and the lane's state -/

theorem queueNotice_outbox (x : State) (n : Notice) : ∀ m ∈ x.link.outbox, m ∈ (x.queueNotice n).link.outbox := by
  unfold State.queueNotice
  split
  · exact fun _ h => h
  · split
    · exact fun _ h => List.mem_append_left _ h
    · exact fun _ h => h

theorem Keeps.queueNotice (h : Keeps φ k l s t) (n : Notice) : Keeps φ k l s (t.queueNotice n) :=
  h.trans (k := 0) ⟨by rw [queueNotice_lane]; exact .refl .., queueNotice_book .., queueNotice_store .., by rw [queueNotice_pool],
    by rw [queueNotice_exc]; exact .same rfl rfl id, queueNotice_outbox t n⟩

/-- A lane out of TROUBLE goes on to another state in service. -/
theorem Keeps.changeLane (h : Keeps φ k l s t) (hx : (t.lane l).state ≠ .trouble) {now : LaneState} (hn : now ≠ .closed)
    (c : LaneCause) : Keeps φ k l s (t.changeLane l now c) := by
  have h1 : Keeps φ k l s (t.modLane l fun x => { x with state := now }) := by
    refine h.setLane rfl rfl rfl rfl rfl ?_
    rw [State.modLane_lane]
    exact ⟨fun v hv => ⟨v, hv, .refl φ v⟩, fun _ => hn, fun h => absurd h hx, rfl, rfl⟩
  exact .ite h (h1.queueNotice _)

/-! ### The Exception Table -/

theorem Keeps.mapEntries (h : Keeps φ k l s t) (f : Entry → Entry) (hf : ∀ e, story (f e) = story e) :
    Keeps φ k l s { t with exc := { t.exc with entries := t.exc.entries.map f } } :=
  h.setExc (j := 0) (x := { t.exc with entries := t.exc.entries.map f }) (.map f hf rfl rfl rfl)

theorem Keeps.enterTrouble (h : Keeps φ k l s t) : Keeps φ k l s (t.enterTrouble l) := by
  by_cases hc : (t.lane l).state = .closed ∨ (t.lane l).state = .trouble
  · have he : t.enterTrouble l = t := if_pos hc
    rwa [he]
  · obtain ⟨hcl, htr⟩ := not_or.mp hc
    have h1 : Keeps φ k l s (t.modLane l fun x => { x with
        interrupted := some x.state, lamp := .red, visit := x.visit.map stilled
        noted := match (t.lane l).visit with
          | some v => ⟨v.idSettle.isSome, v.sealWait.isSome, v.surveyWait.isSome⟩
          | none => ⟨false, false, false⟩ }) := by
      refine h.setLane rfl rfl rfl rfl rfl ?_
      rw [State.modLane_lane]
      exact ⟨fun v hv => ⟨stilled v, congrArg (Option.map stilled) hv, .stilled φ v⟩, id, id, rfl, rfl⟩
    have h2 := h1.mapEntries (fun e : Entry => if e.lane = some l then { e with left := none } else e)
      fun e => by split <;> rfl
    simp only [State.enterTrouble, if_neg hc]
    exact h2.changeLane (by rw [lane_setExc, State.modLane_lane]; exact htr) (by decide) _

theorem Keeps.loseException (h : Keeps φ k l s t) (r : Raise) (resp : Response) (ovr : Bool) (hr : r.lane = some l) :
    Keeps φ k l s (t.loseException r resp ovr) := by
  simp only [State.loseException, hr]
  split
  · exact (h.setExc (j := 0) (x := { t.exc with
      lost := satInc t.exc.lost, full := true, unrecorded := t.exc.unrecorded.set l true })
      (.same rfl rfl fun _ => PerLane.get_set_same ..)).enterTrouble
  · exact h.setExc (j := 0) (x := { t.exc with lost := satInc t.exc.lost, full := true }) (.same rfl rfl id)

theorem Keeps.raiseExc (h : Keeps φ k l s t) (r : Raise) (hr : r.lane = some l) : Keeps φ (k + 1) l s (t.raiseExc r).1 := by
  simp only [State.raiseExc]
  split
  · exact h.mono (Nat.le_succ k)
  · split
    · exact (h.loseException _ _ _ hr).mono (Nat.le_succ k)
    · next es left he =>
      have h2 := fun n => (h.setExc (x := { t.exc with
        entries := es ++ [t.newEntry r (t.store.work.responseOf r.kind r.action) (t.raiseOverridden r)]
        next := t.exc.next + 1, full := if left then false else t.exc.full }) (.store he rfl rfl rfl)).queueNotice n
      split
      · exact h2 _
      · split
        · exact h2 _
        · exact h2 _
        · exact h2 _
        · simp only [hr]; exact (h2 _).enterTrouble

theorem Keeps.raiseVisit (h : Keeps φ k l s t) (c : ExcKind) (p : Option Pos) (detail : Nat) :
    Keeps φ (k + 1) l s (t.raiseVisit c l p detail).1 := h.raiseExc _ rfl

theorem Keeps.reportCleared (h : Keeps φ k l s t) (n : Nat) : Keeps φ k l s (t.reportCleared n) := by
  unfold State.reportCleared
  split
  · exact .ite (Keeps.queueNotice (h.mapEntries (fun e => if e.number = n then e.resolved .cleared else e)
      fun e => by split <;> rfl) _) h
  · exact h

theorem Keeps.clearEntry (h : Keeps φ k l s t) (n : Option Nat) : Keeps φ k l s (t.clearEntry n) := by
  unfold State.clearEntry
  split
  · exact h.reportCleared _
  · exact h

theorem Keeps.clearRetry (h : Keeps φ k l s t) (c : ExcKind) (p : Option Pos) : Keeps φ k l s (t.clearRetry c l p) := by
  unfold State.clearRetry
  split
  · exact h.reportCleared _
  · exact h

/-! ### The barrier and the sign line -/

theorem Keeps.arriveAt (h : Keeps φ k l s t) (a : Arrival) : Keeps φ k l s (t.arriveAt l a).1 := by
  rw [arriveAt_eq]
  refine .ite (Keeps.modBarrier ?_ _) (h.modBarrier _)
  unfold clearFault
  split
  · exact (h.modBarrier _).reportCleared _
  · exact h.modBarrier _

theorem Keeps.enterRaising (h : Keeps φ k l s t) : Keeps φ k l s (t.enterRaising l).1 := by
  simp only [State.enterRaising]
  split
  · exact (h.modBarrier _).arriveAt _
  · exact (h.modBarrier _).pair

theorem Keeps.raiseArm (h : Keeps φ k l s t) : Keeps φ k l s (t.raiseArm l).1 := by
  cases hb : (t.barrier l).state
  case down => rw [LineLaws.raiseArm_begins (.inl hb)]; exact h.enterRaising
  case lowering => rw [LineLaws.raiseArm_begins (.inr hb)]; exact h.enterRaising
  case raising => rw [LineLaws.raiseArm_under_way (.inl hb)]; exact h.modBarrier fun b => { b with exitHold := false }
  case up => rw [LineLaws.raiseArm_under_way (.inr hb)]; exact h.modBarrier fun b => { b with exitHold := false }
  case fault =>
    rw [LineLaws.raiseArm_fault hb]
    split
    · exact h.modBarrier fun b => { b with pending := some .raise }
    · exact h.enterRaising

theorem Keeps.enterExiting (h : Keeps φ k l s t) (hd : (t.lane l).state = .decided) : Keeps φ k l s (t.enterExiting l) := by
  have h1 : Keeps φ k l s (t.modLane l fun x => { x with lamp := .green }) :=
    h.setLane rfl rfl rfl rfl rfl (by rw [State.modLane_lane]; exact .record rfl rfl rfl rfl)
  exact h1.changeLane (by rw [State.modLane_lane]; exact hd ▸ by decide) (by decide) _

/-- The report of UP in a lane that is not EXITING. -/
theorem Keeps.onUp (h : Keeps φ k l s t) (hx : (t.lane l).state ≠ .exiting) : Keeps φ k l s (t.onUp l) := by
  unfold State.onUp
  split
  · next hd _ => exact .ite (h.enterExiting hd) h
  · next he _ => exact absurd he hx
  · exact h

/-- A raise of the barrier in DECIDED with the lane's act on its arrival. -/
theorem Keeps.raised (h : Keeps φ k l s t) (hd : (t.lane l).state = .decided) :
    Keeps φ k l s (State.arrived (t.raiseArm l) l) := by
  have h1 := h.raiseArm
  obtain ⟨hn, hst⟩ := raiseArm_report t l
  unfold State.arrived
  split
  · next e => rw [e] at h1 hst; exact h1.onUp (by rw [hst, hd]; decide)
  · next e => rw [e] at hn; exact absurd rfl hn
  · next e => rw [e] at h1; exact h1

theorem Keeps.testRelease (h : Keeps φ k l s t) : Keeps φ k l s (t.testRelease l) := by
  simp only [State.testRelease]
  split
  · next v hd _ =>
    have h1 := Keeps.ite (c := v.verdict.isSome = true ∧ v.releaseMet = true ∧ v.raiseCommanded = false)
      ((h.modVisit (f := fun v => { v with raiseCommanded := true })).raised (by rw [State.modVisit_lane]; exact hd)) h
    exact .dite (fun hx => h1.enterExiting hx.1) fun _ => h1
  · exact h

theorem Keeps.serveSign (h : Keeps φ k l s t) : Keeps φ k l s (t.serveSign l) :=
  .ite ((h.modSign _).modVisit).testRelease (h.modSign _)

theorem Keeps.joinGroup (h : Keeps φ k l s t) (g : Group) : Keeps φ k l s (t.joinGroup l g) :=
  ((h.modSign _).modCounters).serveSign

theorem Keeps.handOver (h : Keeps φ k l s t) : Keeps φ k l s (t.handOver l) := by
  unfold State.handOver
  split
  · exact h
  · exact (h.modVisit).joinGroup _

theorem Keeps.requestBay (h : Keeps φ k l s t) : Keeps φ (k + 1) l s (t.requestBay l) := by
  simp only [State.requestBay]
  split
  · exact h.mono (Nat.le_succ k)
  · split
    · exact (((h.setPool (p := { t.pool with bays := _ }) List.length_set).modVisit).handOver).mono (Nat.le_succ k)
    · have h1 := fun x => h.setPool (p := { t.pool with waiting := t.pool.waiting ++ [x] }) rfl
      exact .ite (((h1 _).modVisit).handOver.mono (Nat.le_succ k))
        (h.raiseVisit _ _ _)

/-! ### Forming the verdict -/

theorem Keeps.watchTest (h : Keeps φ k l s t) (hφ : WatchBlind φ) (i : Identity) : Keeps φ (k + 1) l s (t.watchTest l i) := by
  have h0 := h.mono (Nat.le_succ k)
  unfold State.watchTest
  split
  · exact h0
  · split
    · split
      · exact h0
      · exact ((h.raiseExc _ rfl).modVisit fun v => .setWatch hφ v i _).evaluate _
    · exact h0

theorem Keeps.tellVerdict (h : Keeps φ k l s t) : Keeps φ k l s (t.tellVerdict l) := by
  have hm : ∀ v : Visit, VisitKept φ v { v with checks := v.checks.clearMarks } := fun v =>
    .of_parts rfl rfl (fun n => by rw [clearMarks_get]) rfl rfl (.inr rfl) (.inr rfl)
  simp only [State.tellVerdict]
  split
  · exact h
  · exact .ite ((h.queueNotice _).modVisit hm) (h.queueNotice _)

theorem Keeps.releaseStep (h : Keeps φ k l s t) : Keeps φ (k + 1) l s (t.releaseStep l) := by
  have h1 := h.evaluate .release
  simp only [State.releaseStep]
  split
  · exact h.mono (Nat.le_succ k)
  · refine .ite (h.mono (Nat.le_succ k)) ?_
    split
    · exact .ite (h1.mono (Nat.le_succ k)) ((h1.raiseVisit _ _ _).modVisit)
    · exact h1.mono (Nat.le_succ k)

theorem gathers_not_trouble (h : t.gathers l = true) : (t.lane l).state ≠ .trouble := by
  intro he
  rw [State.gathers, he] at h
  cases h

theorem Keeps.enterDecided (h : Keeps φ k l s t) (hx : (t.lane l).state ≠ .trouble) :
    Keeps φ (k + 1) l s (t.enterDecided l) := by
  have h0 : Keeps φ k l s (t.modVisit l decidedVisit) :=
    h.modVisit fun v => .of_parts rfl rfl (fun _ => rfl) rfl rfl (.inl rfl) (.inl rfl)
  have h1 := h0.changeLane (by rw [State.modVisit_lane]; exact hx) (now := .decided) (by decide) .verdict
  exact .ite h1.requestBay (h1.handOver.mono (Nat.le_succ k))

theorem tellVerdict_state (t : State) (l : LaneNo) : ((t.tellVerdict l).lane l).state = (t.lane l).state := by
  simp only [State.tellVerdict]
  split
  · rfl
  · split <;> simp

theorem Keeps.attempt (h : Keeps φ k l s t) (hφ : WatchBlind φ) : Keeps φ (k + 5) l s (t.attempt l) := by
  have h1 := (((h.modVisit (f := fun v => { v with attempted := true })).watchTest hφ .plate).watchTest hφ .front).watchTest
    hφ .rear
  have h2 := h1.releaseStep
  refine .ite (h.mono (by omega)) (.ite (h1.mono (by omega)) (.dite (fun _ => h2.mono (by omega)) fun hg =>
    Keeps.enterDecided (((h2.evaluate .watch true).modVisit).tellVerdict) ?_))
  rw [tellVerdict_state, State.recordVerdict, State.modVisit_lane, State.evaluate, State.modVisit_lane]
  exact gathers_not_trouble (Bool.not_eq_false _ ▸ hg)

theorem Keeps.settle (h : Keeps φ k l s t) (hφ : WatchBlind φ) : Keeps φ (k + 5) l s (t.settle l) := by
  unfold State.settle
  split
  · exact .ite (h.attempt hφ) (h.mono (by omega))
  · exact h.mono (by omega)

end Sys2Proof.Machine.ReadLaws
end

section
/-! SUPPORT. What the work on the positions of a visit keeps: raising under a mark, judging seals and surveys, finding the moves,
recording an ID (R73 to R77, R91, R93, R102, R109). -/

namespace Sys2Proof.Machine.ReadLaws

open Sys2Proof.Machine.VisitLaws

variable {s t u : State} {l : LaneNo} {v w : Visit} {α : Type} {φ : Pos → PosRec → α} {k : Nat}

/-! ### Views and their blind spots -/

/-- The view shows nothing of the parts of a position. -/
structure PartsBlind (φ : Pos → PosRec → α) (p : Pos) : Prop where
  seals (r : PosRec) (f : SealPart → SealPart) : φ p (r.modSeal f) = φ p r
  damage (r : PosRec) (f : DamagePart → DamagePart) : φ p (r.modDamage f) = φ p r

/-- The lane holds a visit whose positions show the view of another visit's. -/
def Shows (φ : Pos → PosRec → α) (l : LaneNo) (t : State) (v : Visit) : Prop :=
  ∃ w, t.visit l = some w ∧ ∀ p, φ p (w.pos p) = φ p (v.pos p)

theorem Shows.of_visit (hv : t.visit l = some v) : Shows φ l t v := ⟨v, hv, fun _ => rfl⟩

theorem Keeps.shows (h : Keeps φ k l s t) (hs : Shows φ l s v) : Shows φ l t v := by
  obtain ⟨w, hw, hp⟩ := hs
  obtain ⟨y, hy, hk⟩ := h.lane.visit w hw
  exact ⟨y, hy, fun p => (hk.pos p).trans (hp p)⟩

theorem pos_setPos (v : Visit) (p q : Pos) (r : PosRec) : (v.setPos p r).pos q = if q = p then r else v.pos q := by
  cases p <;> cases q <;> rfl

/-- A change of one position that the view follows. -/
theorem Shows.modPos (h : Shows φ l t v) (p : Pos) {f : PosRec → PosRec}
    (hf : ∀ a b, φ p a = φ p b → φ p (f a) = φ p (f b)) : Shows φ l (t.modPos l p f) (v.setPos p (f (v.pos p))) := by
  obtain ⟨w, hw, hp⟩ := h
  refine ⟨w.setPos p (f (w.pos p)), by rw [State.modPos, State.modVisit_visit, hw]; rfl, fun q => ?_⟩
  rw [pos_setPos, pos_setPos]
  split
  · next hq => rw [hq]; exact hf _ _ (hp p)
  · exact hp q

/-- A position that shows the same in place of another. -/
theorem Shows.setPos_same (h : Shows φ l t v) {p : Pos} {r : PosRec} (hr : φ p r = φ p (v.pos p)) :
    Shows φ l t (v.setPos p r) := by
  obtain ⟨w, hw, hp⟩ := h
  refine ⟨w, hw, fun q => ?_⟩
  rw [pos_setPos]
  split
  · next hq => rw [hq, hr]; exact hp p
  · exact hp q

theorem Keeps.foldl {α' : Type} {f : State → α' → State} (n : Nat)
    (hf : ∀ t a k, Keeps φ k l s t → Keeps φ (k + n) l s (f t a)) (xs : List α') (h : Keeps φ k l s t) :
    Keeps φ (k + n * xs.length) l s (xs.foldl f t) := by
  induction xs generalizing t k with
  | nil => exact h
  | cons x xs ih => exact (ih (hf _ _ _ h)).mono (by rw [List.length_cons, Nat.mul_add]; omega)

/-! ### Seals and surveys -/

/-- The view shows nothing of the marks of a seal part. -/
def MarksBlind (φ : Pos → PosRec → α) (p : Pos) : Prop :=
  ∀ r f, (∀ x : SealPart, (f x).phase = x.phase ∧ (f x).outcome = x.outcome) → φ p (r.modSeal f) = φ p r

theorem Keeps.raiseSeal {p : Pos} (hφ : MarksBlind φ p) (h : Keeps φ k l s t) (o : SealOutcome) (n : Nat) :
    Keeps φ (k + 1) l s (t.raiseSeal l p o n) := by
  have h0 := h.mono (Nat.le_succ k)
  have hm : ∀ c f, (∀ x : SealPart, (f x).phase = x.phase ∧ (f x).outcome = x.outcome) →
      Keeps φ (k + 1) l s ((t.raiseVisit c l (some p) n).1.modPos l p fun r => r.modSeal f) :=
    fun c f hf => (h.raiseVisit c _ n).modPos fun r => hφ r f hf
  unfold State.raiseSeal
  cases o
  case mismatch => exact .ite h0 (hm _ _ fun _ => ⟨rfl, rfl⟩)
  case unexpected => exact .ite h0 (hm _ _ fun _ => ⟨rfl, rfl⟩)
  all_goals exact h0

section Parts
variable {p : Pos} (hφ : PartsBlind φ p)
include hφ

theorem Keeps.modSeal (h : Keeps φ k l s t) (f : SealPart → SealPart) : Keeps φ k l s (t.modPos l p fun r => r.modSeal f) :=
  h.modPos fun r => hφ.seals r f

theorem Keeps.modDamage (h : Keeps φ k l s t) (f : DamagePart → DamagePart) :
    Keeps φ k l s (t.modPos l p fun r => r.modDamage f) := h.modPos fun r => hφ.damage r f

theorem PartsBlind.marks : MarksBlind φ p := fun r f _ => hφ.seals r f

theorem Keeps.evalSeal (h : Keeps φ k l s t) (c : Bool) : Keeps φ (k + 1) l s (t.evalSeal l p c) := by
  have h0 := h.mono (Nat.le_succ k)
  simp only [State.evalSeal]
  split
  · refine .ite h0 (Keeps.evaluate (.ite (.clearEntry ?_ _) ?_) _)
    all_goals exact .ite (Keeps.raiseSeal hφ.marks (h.modSeal hφ _) _ _) (h0.modSeal hφ _)
  · exact h0

theorem Keeps.raiseDamage (h : Keeps φ k l s t) (o : DamageOutcome) : Keeps φ (k + 1) l s (t.raiseDamage l p o) := by
  have h0 := h.mono (Nat.le_succ k)
  have hr : ∀ c n f, Keeps φ (k + 1) l s ((t.raiseVisit c l (some p) n).1.modPos l p fun r => r.modDamage f) :=
    fun c n f => (h.raiseVisit c _ n).modDamage hφ f
  simp only [State.raiseDamage]
  refine .ite h0 ?_
  split
  · exact .ite h0 (hr _ _ _)
  · exact .ite h0 (hr _ _ _)
  · exact h0

theorem Keeps.gradeSurvey (h : Keeps φ k l s t) (sv : Survey) : Keeps φ (k + 1) l s (t.gradeSurvey l p sv) := by
  simp only [State.gradeSurvey]
  split
  · exact h.mono (Nat.le_succ k)
  · have h1 := fun f o => ((h.modDamage hφ f).raiseDamage hφ o).evaluate (damageCheck p)
    exact .ite ((h1 _ _).clearEntry _) (h1 _ _)

theorem Keeps.gradeHeld (h : Keeps φ k l s t) : Keeps φ (k + 1) l s (t.gradeHeld l p) := by
  simp only [State.gradeHeld]
  split
  · exact .ite (h.gradeSurvey hφ _) (h.mono (Nat.le_succ k))
  · exact h.mono (Nat.le_succ k)
end Parts

/-! ### IDs -/

theorem Keeps.evaluateIds (h : Keeps φ k l s t) : Keeps φ k l s (t.evaluateIds l) := (h.evaluate _).evaluate _

/-- The moves once found (R89), for a view that shows nothing of the parts. -/
theorem Keeps.findMoves (h : Keeps φ k l s t) (hφ : ∀ p m r o, φ p (reseat m r o) = φ p r) :
    Keeps φ k l s (t.findMoves l) := by
  unfold State.findMoves
  split
  · exact h
  · next v hv =>
    have h1 : Keeps φ k l s (t.modVisit l fun v' => { v' with
        front := reseat (seatMoves (t.claimedMoves l) v.front v.rear).1 v.front v.rear
        rear := reseat (seatMoves (t.claimedMoves l) v.front v.rear).2 v.rear v.front }) :=
      h.modVisit_of hv ⟨rfl, rfl, fun _ => rfl, fun p => by cases p; exacts [hφ .front _ _ _, hφ .rear _ _ _], .inr rfl,
        .inr rfl⟩
    have hon : ∀ (b : Bool) (n : CheckName) {x : State}, Keeps φ k l s x → Keeps φ k l s (if b then x.evaluate l n else x) :=
      fun _ n _ hx => .ite (hx.evaluate n) hx
    exact hon _ _ (hon _ _ (hon _ _ (hon _ _ h1)))

/-- What an ID read shows of a position. -/
def idView (_ : Pos) (r : PosRec) : Option Text × Bool × Nat × Bool × Bool :=
  (r.cid, r.spanning, r.misreads, r.conflict, r.mismatch)

theorem idView_watchBlind : WatchBlind idView := fun _ _ _ => rfl

theorem idView_partsBlind (p : Pos) : PartsBlind idView p := ⟨fun _ _ => rfl, fun _ _ => rfl⟩

theorem idView_reseat (p : Pos) (m : Option (Nat × Basis)) (r o : PosRec) : idView p (reseat m r o) = idView p r := by
  cases m <;> rfl

/-- What follows a recorded ID keeps the IDs and marks of both positions (R77, R83, R89, R102, R118). -/
theorem Keeps.idRecorded (h : Keeps idView k l s t) (x : Text) (filled : List Pos) (i : Identity) :
    Keeps idView (k + 5) l s (t.idRecorded l x filled i) := by
  have h1 : Keeps idView (k + 0 * filled.length) l s (filled.foldl (fun t p => t.clearRetry .idUnreadable l (some p)) t) :=
    h.foldl 0 (fun _ _ _ hk => hk.clearRetry _ _) _
  have h2 := h1.watchTest idView_watchBlind i
  have h3 := (h2.findMoves idView_reseat).foldl 1 (f := fun u p =>
    if (u.posRec l p).recorded ∧ (u.posRec l p).cid = some x then u.evalSeal l p else u) (fun u p _ hk =>
      .ite (hk.evalSeal (idView_partsBlind p) false) (hk.mono (Nat.le_succ _))) bothPos
  have h4 := h3.foldl 1 (f := fun u p => u.gradeHeld l p) (fun u p _ hk => hk.gradeHeld (idView_partsBlind p)) bothPos
  exact (Keeps.ite (h4.mono (by simp [bothPos])) (h2.mono (by simp))).evaluateIds

end Sys2Proof.Machine.ReadLaws
end

section
/-! SUPPORT. O41: valid IDs, and what each result of an ID read leaves of the lane's visit (R69 to R74). -/

namespace Sys2Proof.Machine.ReadLaws

open Sys2Proof.Machine.VisitLaws

variable {s t u : State} {l : LaneNo} {v w : Visit} {k : Nat}

/-! ### Valid IDs (R70) -/

/-- The values of the letters for the check digit, A first. -/
def letterValues : List Nat :=
  [10, 12, 13, 14, 15, 16, 17, 18, 19, 20, 21, 23, 24, 25, 26, 27, 28, 29, 30, 31, 32, 34, 35, 36, 37, 38]

/-- The value of a character code for the check digit, letters by their list. -/
def codeValue (n : Nat) : Nat := if n < 65 then n - 48 else letterValues.getD (n - 65) 0

theorem checkValue_code {b : Byte} (h : isAlnum b = true) : checkValue b = codeValue b.toNat := by
  revert b
  decide

theorem all_iff_getD (p : Byte → Bool) (xs : Text) : xs.all p = true ↔ ∀ i < xs.length, p (xs.getD i 0) = true := by
  rw [List.all_eq_true, List.forall_mem_iff_forall_getElem]
  exact forall₂_congr fun i hi => by rw [List.getD_eq_getElem _ _ hi]

theorem isLetter_iff (b : Byte) : isLetter b = true ↔ 65 ≤ b.toNat ∧ b.toNat ≤ 90 := by simp [isLetter]

theorem isDigit_iff (b : Byte) : isDigit b = true ↔ 48 ≤ b.toNat ∧ b.toNat ≤ 57 := by simp [isDigit]

theorem cidForm_iff (c : Text) : cidForm c = true ↔ c.length = 11 ∧
    (∀ i < 4, isLetter (c.getD i 0) = true) ∧ ∀ i < 11, 4 ≤ i → isDigit (c.getD i 0) = true := by
  rw [cidForm, Bool.and_eq_true, Bool.and_eq_true, beq_iff_eq, and_assoc]
  refine and_congr_right fun hl => and_congr ?_ ?_
  · rw [all_iff_getD, List.length_take, hl]
    exact forall₂_congr fun i hi => by
      rw [List.getD_eq_getElem?_getD, List.getElem?_take_of_lt (show i < 4 from hi), List.getD_eq_getElem?_getD]
  · have hd : ∀ i, (c.drop 4).getD i 0 = c.getD (4 + i) 0 := fun i => by
      rw [List.getD_eq_getElem?_getD, List.getElem?_drop, List.getD_eq_getElem?_getD]
    rw [all_iff_getD, List.length_drop, hl]
    refine ⟨fun h i hi h4 => ?_, fun h i hi => hd i ▸ h (4 + i) (by omega) (by omega)⟩
    have := h (i - 4) (by omega)
    rwa [hd, Nat.add_sub_cancel' h4] at this

/-- The weighted sum over the characters' values, the places counted from `n`. -/
theorem weightedSum_eq (f : Nat → Nat) (t : Text) (n : Nat) (h : ∀ i < t.length, checkValue (t.getD i 0) = f (n + i)) :
    weightedSum (2 ^ n) t = ((List.range' n t.length).map fun i => f i * 2 ^ i).sum := by
  induction t generalizing n with
  | nil => rfl
  | cons b t ih =>
    have h0 : checkValue b = f n := h 0 (Nat.succ_pos _)
    have ht : ∀ i < t.length, checkValue (t.getD i 0) = f (n + 1 + i) := fun i hi => by
      rw [Nat.add_assoc, Nat.add_comm 1 i]
      exact h (i + 1) (Nat.succ_lt_succ hi)
    rw [weightedSum, ← Nat.pow_succ', ih (n + 1) ht, h0]
    rfl

/-- The check digit of an ID of the form, by the values of its first ten characters. -/
theorem checkDigit_eq {c : Text} (hl : c.length = 11) (ha : ∀ i < 11, isAlnum (c.getD i 0) = true) : checkDigit c =
    let sum := ((List.range 10).map fun i => codeValue (c.getD i 0).toNat * 2 ^ i).sum
    if sum % 11 = 10 then 0 else sum % 11 := by
  have hlen : (c.take 10).length = 10 := by rw [List.length_take, hl]; rfl
  have hs := weightedSum_eq (fun i => codeValue (c.getD i 0).toNat) (c.take 10) 0 fun i hi => by
    rw [hlen] at hi
    rw [List.getD_eq_getElem?_getD, List.getElem?_take_of_lt hi, ← List.getD_eq_getElem?_getD, Nat.zero_add]
    exact checkValue_code (ha i (by omega))
  rw [hlen, ← List.range_eq_range'] at hs
  rw [checkDigit, show (1 : Nat) = 2 ^ 0 from rfl, hs]

theorem cidOk_iff (c : Text) :
    let char (i : Nat) : Nat := (c.getD i 0).toNat
    let sum := ((List.range 10).map fun i => codeValue (char i) * 2 ^ i).sum
    cidOk c = true ↔ c.length = 11 ∧ (∀ i < 4, 65 ≤ char i ∧ char i ≤ 90) ∧
      (∀ i < 11, 4 ≤ i → 48 ≤ char i ∧ char i ≤ 57) ∧ char 10 = 48 + (if sum % 11 = 10 then 0 else sum % 11) := by
  intro char sum
  simp only [cidOk, Bool.and_eq_true, beq_iff_eq, cidForm_iff, isLetter_iff, isDigit_iff, and_assoc]
  refine and_congr_right fun hl => and_congr_right fun h4 => and_congr_right fun h11 => ?_
  have ha : ∀ i < 11, isAlnum (c.getD i 0) = true := fun i hi => by
    rw [isAlnum, Bool.or_eq_true, isLetter_iff, isDigit_iff]
    rcases Nat.lt_or_ge i 4 with h | h
    · exact .inl (h4 i h)
    · exact .inr (h11 i hi h)
  obtain ⟨hlo, hhi⟩ := h11 10 (by omega) (by omega)
  have hv : checkValue (c.getD 10 0) = char 10 - 48 := if_pos ((isDigit_iff _).mpr ⟨hlo, hhi⟩)
  rw [List.getElem?_eq_getElem (by omega), Option.map_some, Option.some.injEq, ← List.getD_eq_getElem (d := 0), hv,
    checkDigit_eq hl ha]
  show char 10 - 48 = (if sum % 11 = 10 then 0 else sum % 11) ↔ _
  have : 48 ≤ char 10 := hlo
  omega

/-! ### Placing (R73) -/

/-- The table of R73 as the statement writes it: the result's code and the IDs that stand. -/
def placedTable (v : Visit) (c : Text) (named : ReadPos) : Byte × Option Text × Option Text :=
  let f := v.front.cid
  let g := v.rear.cid
  let duplicate : Byte × Option Text × Option Text := (1, f, g)
  let conflict : Byte × Option Text × Option Text := (3, f, g)
  if named = .whole then
    if v.front.spanning = true ∧ f = some c then duplicate
    else if (f = none ∨ f = some c) ∧ (g = none ∨ g = some c) then (0, some c, some c)
    else conflict
  else if named = .unknown then
    if f = some c ∨ g = some c then duplicate
    else if f = none then (0, some c, g)
    else if g = none then (0, f, some c)
    else conflict
  else if v.front.spanning = true then if f = some c then duplicate else conflict
  else if f = some c ∧ g = none ∨ g = some c ∧ f = none then duplicate
  else if named = .front then
    if f = none then (0, some c, g) else if f = some c then duplicate else conflict
  else if g = none then (0, f, some c) else if g = some c then duplicate else conflict

/-- The same told of the model's placing. -/
def placedAs (v : Visit) (c : Text) : Placing → Byte × Option Text × Option Text
  | .one .front => (0, some c, v.rear.cid)
  | .one .rear => (0, v.front.cid, some c)
  | .both => (0, some c, some c)
  | .duplicate => (1, v.front.cid, v.rear.cid)
  | .conflict => (3, v.front.cid, v.rear.cid)

theorem placedTable_eq (v : Visit) (c : Text) (named : ReadPos) :
    placedTable v c named = placedAs v c (placeId v.front v.rear c named) := by
  have hd : ∀ (a : Prop) [Decidable a] (x y : Placing), placedAs v c (if a then x else y) =
      if a then placedAs v c x else placedAs v c y := fun a _ x y => apply_ite ..
  cases named
  all_goals simp only [placeId, hd]
  case whole => simp [placedTable, placedAs]
  case unknown => simp [placedTable, placedAs]
  case front => simp only [placedTable, placedAs, reduceCtorEq, if_false, if_true]; grind
  case rear => simp only [placedTable, placedAs, reduceCtorEq, if_false]; grind

theorem placeId_whole (f r : PosRec) (c : Text) (p : Pos) : placeId f r c .whole ≠ .one p := by
  simp only [placeId]
  split
  · exact fun h => by cases h
  · split <;> exact fun h => by cases h

end Sys2Proof.Machine.ReadLaws
end

section
/-! SUPPORT. O41: what each result of an ID read leaves of the lane's visit (R71 to R74). -/

namespace Sys2Proof.Machine.ReadLaws

open Sys2Proof.Machine.VisitLaws

variable {s t u : State} {l : LaneNo} {v w : Visit} {k : Nat} {α : Type} {φ : Pos → PosRec → α}

theorem posRec_eq (hv : s.visit l = some v) (p : Pos) : s.posRec l p = v.pos p := by
  rw [State.posRec, hv]
  rfl

theorem Shows.idPair (h : Shows idView l t v) : (t.visit l).map (fun w => (w.front.cid, w.rear.cid)) =
    some (v.front.cid, v.rear.cid) := by
  obtain ⟨w, hw, hp⟩ := h
  have hf : w.front.cid = v.front.cid := congrArg Prod.fst (hp .front)
  have hr : w.rear.cid = v.rear.cid := congrArg Prod.fst (hp .rear)
  rw [hw, Option.map_some, hf, hr]

theorem Shows.spanningPair (h : Shows idView l t v) : (t.visit l).map (fun w => (w.front.spanning, w.rear.spanning)) =
    some (v.front.spanning, v.rear.spanning) := by
  obtain ⟨w, hw, hp⟩ := h
  have hf : w.front.spanning = v.front.spanning := congrArg (·.2.1) (hp .front)
  have hr : w.rear.spanning = v.rear.spanning := congrArg (·.2.1) (hp .rear)
  rw [hw, Option.map_some, hf, hr]

theorem Shows.of_same (h : Shows φ l t v) (hu : u.visit l = t.visit l) : Shows φ l u v := by
  obtain ⟨w, hw, hp⟩ := h
  exact ⟨w, hu.trans hw, hp⟩

theorem modCounters_visit (s : State) (l : LaneNo) (f : LaneCounters → LaneCounters) :
    (s.modCounters l f).visit l = s.visit l := by
  rw [State.modCounters, State.visit, State.modLane_lane]
  rfl

/-- What the view shows of one position. -/
theorem Shows.at (h : Shows φ l t v) {β : Type} {f : PosRec → β} {p : Pos} (g : α → β)
    (hg : ∀ r, f r = g (φ p r)) : (t.visit l).map (fun w => f (w.pos p)) = some (f (v.pos p)) := by
  obtain ⟨w, hw, hp⟩ := h
  rw [hw, Option.map_some, hg, hg, hp]

/-! ### Raising under a mark -/

/-- The view shows neither that a position is made nor its unreadable mark. -/
def UnreadableBlind (φ : Pos → PosRec → α) (p : Pos) : Prop :=
  ∀ r : PosRec, φ p { r with made := true } = φ p r ∧ φ p { r with unreadable := true } = φ p r

theorem Keeps.raiseUnreadable {p : Pos} (hφ : UnreadableBlind φ p) (h : Keeps φ k l s t) (d : Nat) :
    Keeps φ (k + 1) l s (t.raiseUnreadable l p d) := by
  have h0 : Keeps φ k l s (t.makePos l p) := h.modPos fun r => (hφ r).1
  exact .ite (h0.mono (Nat.le_succ k))
    (((h0.raiseVisit _ _ _).modPos (f := fun r => { r with unreadable := true }) fun r => (hφ r).2).evaluate _)

theorem Keeps.makePos (h : Keeps idView k l s t) (p : Pos) : Keeps idView k l s (t.makePos l p) := h.modPos fun _ => rfl

theorem raiseConflict_shows (hv : s.visit l = some v) (p : Pos) (d : Nat) :
    Shows idView l (s.raiseConflict l p d) (v.setPos p { v.pos p with conflict := true }) := by
  have h0 := (Keeps.refl idView l s).makePos p
  have hs := h0.shows (.of_visit hv)
  simp only [State.raiseConflict, posRec_eq hv]
  split
  · next hc => exact hs.setPos_same (show idView p _ = idView p _ by simp only [idView, hc])
  · have h1 := (Keeps.refl idView l (s.makePos l p)).raiseVisit .idConflict (some p) d
    have h2 := (h1.shows hs).modPos p (f := fun r => { r with conflict := true })
      fun a b hab => congrArg (fun i => (i.1, i.2.1, i.2.2.1, true, i.2.2.2.2)) hab
    exact ((Keeps.refl ..).evaluate _).shows h2

theorem raiseMismatch_shows (hv : s.visit l = some v) (p : Pos) (d : Nat) :
    Shows idView l (s.raiseMismatch l p d) (v.setPos p { v.pos p with mismatch := true }) := by
  have h0 := (Keeps.refl idView l s).makePos p
  have hs := h0.shows (.of_visit hv)
  simp only [State.raiseMismatch, posRec_eq hv]
  split
  · next hc => exact hs.setPos_same (show idView p _ = idView p _ by simp only [idView, hc])
  · have h1 := (Keeps.refl idView l (s.makePos l p)).raiseVisit .containerMismatch (some p) d
    have h2 := (h1.shows hs).modPos p (f := fun r => { r with mismatch := true })
      fun a b hab => congrArg (fun i => (i.1, i.2.1, i.2.2.1, i.2.2.2.1, true)) hab
    exact ((Keeps.refl ..).evaluate _).shows h2

/-! ### Misreads (R71) -/

/-- A misread counted, before ID_UNREADABLE is tested. -/
def misreadCounted (s : State) (l : LaneNo) (p : Pos) : State :=
  (s.modPos l p fun r => { r with made := true, misreads := satInc8 r.misreads }).modCounters l
    fun c => { c with misreads := satInc c.misreads }

theorem misread_keeps (s : State) (l : LaneNo) (p : Pos) : Keeps idView 1 l (misreadCounted s l p) (s.misread l p) :=
  .ite (.raiseUnreadable (fun _ => ⟨rfl, rfl⟩) (.refl ..) _) ((Keeps.refl ..).mono (Nat.zero_le 1))

theorem misreadCounted_shows (hv : s.visit l = some v) (p : Pos) : Shows idView l (misreadCounted s l p)
    (v.setPos p { v.pos p with made := true, misreads := satInc8 (v.pos p).misreads }) := by
  have h := (Shows.of_visit (φ := idView) hv).modPos p (f := fun r => { r with made := true, misreads := satInc8 r.misreads })
    fun a b hab => congrArg (fun i => (i.1, i.2.1, satInc8 i.2.2.1, i.2.2.2.1, i.2.2.2.2)) hab
  exact h.of_same (modCounters_visit ..)

theorem misreadCounted_counters (s : State) (l : LaneNo) (p : Pos) :
    ((misreadCounted s l p).lane l).counters.misreads = satInc (s.lane l).counters.misreads := by
  rw [misreadCounted, State.modCounters, State.modLane_lane, State.modPos, State.modVisit_lane]
  rfl

/-! ### Placing (R73) -/

theorem Keeps.spanBox_after (s : State) (l : LaneNo) (x : Text) :
    Keeps idView 0 l (s.modVisit l fun v => v.span x) (s.spanBox l x) := by
  have h := Keeps.refl idView l (s.modVisit l fun v => v.span x)
  have h1 := Keeps.ite (c := (s.posRec l .rear).sealPart.outcome ≠ .notApplicable) (h.evaluate .sealRear) h
  exact .ite (h1.evaluate _) h1

/-- The result of a read by what the table of R73 comes to. -/
def placedResult : Placing → IdResult
  | .one _ => .recorded
  | .both => .recorded
  | .duplicate => .duplicate
  | .conflict => .conflict

/-- The visit as a placing leaves it, told of its IDs and marks; a conflict is charged to `q`. -/
def placedVisit (v : Visit) (x : Text) (q : Pos) : Placing → Visit
  | .one p => v.setPos p { v.pos p with made := true, cid := some x }
  | .both => v.span x
  | .duplicate => v
  | .conflict => v.setPos q { v.pos q with conflict := true }

theorem countDuplicate_visit (s : State) (l : LaneNo) : (s.countDuplicate l).visit l = s.visit l := modCounters_visit ..

theorem countDuplicate_counters (s : State) (l : LaneNo) :
    ((s.countDuplicate l).lane l).counters.duplicates = satInc (s.lane l).counters.duplicates := by
  rw [State.countDuplicate, State.modCounters, State.modLane_lane]

theorem placeRead_result (hv : s.visit l = some v) (x : Text) (named : ReadPos) (q : Pos) :
    (s.placeRead l x named q).2 = placedResult (placeId v.front v.rear x named) := by
  have hf := posRec_eq hv .front
  have hr := posRec_eq hv .rear
  simp only [Visit.pos] at hf hr
  simp only [State.placeRead, hf, hr]
  cases placeId v.front v.rear x named <;> rfl

theorem placeRead_shows (hv : s.visit l = some v) (x : Text) (named : ReadPos) (q : Pos) :
    Shows idView l (s.placeRead l x named q).1 (placedVisit v x q (placeId v.front v.rear x named)) := by
  have hf := posRec_eq hv .front
  have hr := posRec_eq hv .rear
  simp only [Visit.pos] at hf hr
  simp only [State.placeRead, hf, hr]
  cases placeId v.front v.rear x named with
  | one p =>
    have h := (Shows.of_visit (φ := idView) hv).modPos p (f := fun r => { r with made := true, cid := some x })
      fun a b hab => congrArg (fun i => (some x, i.2)) hab
    exact ((Keeps.refl ..).idRecorded _ _ _).shows h
  | both =>
    have h : Shows idView l (s.modVisit l fun v => v.span x) (v.span x) :=
      .of_visit (by rw [State.modVisit_visit, hv]; rfl)
    exact (((Keeps.spanBox_after s l x).idRecorded _ _ _)).shows h
  | duplicate => exact (Shows.of_visit hv).of_same (countDuplicate_visit s l)
  | conflict => exact raiseConflict_shows hv q 1

/-- A duplicate is counted (R73). -/
theorem placeRead_duplicate (hv : s.visit l = some v) {x : Text} {named : ReadPos} (q : Pos)
    (h : placeId v.front v.rear x named = .duplicate) : (s.placeRead l x named q).1 = s.countDuplicate l := by
  have hf := posRec_eq hv .front
  have hr := posRec_eq hv .rear
  simp only [Visit.pos] at hf hr
  simp only [State.placeRead, hf, hr, h]

/-- What the statement says of a read placed as `named`, with the position it is charged to. -/
structure ReadPlaced (s : State) (l : LaneNo) (v : Visit) (q : Pos) (named : ReadPos) (a : Byte × Option Text × Option Text)
    (t : State) : Prop where
  ids : (t.visit l).map (fun w => (w.front.cid, w.rear.cid)) = some a.2
  duplicates : a.1 = 1 → (t.lane l).counters.duplicates = min 65535 ((s.lane l).counters.duplicates + 1)
  conflict : a.1 = 3 → (t.visit l).map (fun w => (w.pos q).conflict) = some true
  spans : a.1 = 0 → named = .whole → (t.visit l).map (fun w => (w.front.spanning, w.rear.spanning)) = some (true, true)

theorem placedAs_result (v : Visit) (x : Text) (c : Placing) : u8 (placedResult c).ctorIdx = [(placedAs v x c).1] := by
  rcases c with (_ | _) | _ | _ | _ <;> rfl

theorem placedAs_duplicate (v : Visit) (x : Text) (c : Placing) : (placedAs v x c).1 = 1 ↔ c = .duplicate := by
  rcases c with (_ | _) | _ | _ | _ <;> simp [placedAs]

theorem placedAs_conflict (v : Visit) (x : Text) (c : Placing) : (placedAs v x c).1 = 3 ↔ c = .conflict := by
  rcases c with (_ | _) | _ | _ | _ <;> simp [placedAs]

theorem placedAs_recorded {v : Visit} {x : Text} {c : Placing} (h : (placedAs v x c).1 = 0) : c = .both ∨ ∃ p, c = .one p := by
  rcases c with p | _ | _ | _
  · exact .inr ⟨p, rfl⟩
  · exact .inl rfl
  all_goals exact absurd h (by simp [placedAs])

theorem placedVisit_ids (v : Visit) (x : Text) (q : Pos) (c : Placing) :
    ((placedVisit v x q c).front.cid, (placedVisit v x q c).rear.cid) = (placedAs v x c).2 := by
  rcases c with (_ | _) | _ | _ | _
  case conflict => cases q <;> rfl
  all_goals rfl

theorem placeRead_placed (hv : s.visit l = some v) (x : Text) (named : ReadPos) (q : Pos) :
    ReadPlaced s l v q named (placedTable v x named) ((s.placeRead l x named q).1.settle l) := by
  have hset := (Keeps.refl idView l (s.placeRead l x named q).1).settle idView_watchBlind
  have hs := hset.shows (placeRead_shows hv x named q)
  rw [placedTable_eq]
  refine ⟨hs.idPair.trans (congrArg some (placedVisit_ids ..)), fun h => ?_, fun h => ?_, fun h hw => ?_⟩
  · have hp := (placedAs_duplicate v x _).mp h
    rw [hset.lane.duplicates, placeRead_duplicate hv q hp]
    exact countDuplicate_counters s l
  · have hp := (placedAs_conflict v x _).mp h
    have hc := hs.at (p := q) (f := PosRec.conflict) (·.2.2.2.1) fun _ => rfl
    rwa [hp, placedVisit, pos_setPos, if_pos rfl] at hc
  · subst hw
    rcases placedAs_recorded h with hp | ⟨p, hp⟩
    · rw [hp] at hs
      exact hs.spanningPair
    · exact absurd hp (placeId_whole _ _ _ _)

end Sys2Proof.Machine.ReadLaws
end

section
/-! SUPPORT. O41: the move that an ID names, and where ID_READ takes the read (R72, R74). -/

namespace Sys2Proof.Machine.ReadLaws

open Sys2Proof.Machine.VisitLaws

variable {s t u : State} {l : LaneNo} {v w : Visit}

/-! ### The bring-in move of an ID (R74) -/

/-- The first bring-in move with the ID. -/
def ownMove (ms : List Move) (x : Text) : Option Move := ms.find? fun m => m.kind.bringIn && m.cid == some x

/-- The move and its place come from one search. -/
theorem ownMove_zipIdx (ms : List Move) (x : Text) : ∃ z : Option (Move × Nat), ownMove ms x = z.map Prod.fst ∧
    placeOfCid ms x = z.map (·.2 + 1) ∧ ∀ m ∈ z, ms[m.2]? = some m.1 := by
  refine ⟨ms.zipIdx.find? fun m => m.1.kind.bringIn && m.1.cid == some x, ?_, ?_, fun m hm => ?_⟩
  · conv_lhs => rw [ownMove, ← List.zipIdx_map_fst 0 ms, List.find?_map]
    rfl
  · rw [placeOfCid, bringIns_eq, placedMoves, List.find?_map, List.find?_filter, Option.map_map]
    simp only [Bool.decide_and, Bool.decide_eq_true]
    rfl
  · exact List.mem_zipIdx_iff_getElem?.mp (List.mem_of_find?_eq_some hm)

theorem placeOfCid_none_iff (ms : List Move) (x : Text) : placeOfCid ms x = none ↔ ownMove ms x = none := by
  obtain ⟨z, ho, hp, -⟩ := ownMove_zipIdx ms x
  rw [ho, hp, Option.map_eq_none_iff, Option.map_eq_none_iff]

theorem moveAt_placeOfCid {ms : List Move} {x : Text} {n : Nat} (h : placeOfCid ms x = some n) :
    moveAt ms n = ownMove ms x := by
  obtain ⟨z, ho, hp, hz⟩ := ownMove_zipIdx ms x
  obtain ⟨m, rfl, rfl⟩ := Option.map_eq_some_iff.mp (hp.symm.trans h)
  rw [ho, moveAt, if_neg (Nat.succ_ne_zero _)]
  exact hz m rfl

theorem claimedMoves_eq (hv : s.visit l = some v) :
    s.claimedMoves l = ((v.claimed.bind s.book.find).map Booking.moves).getD [] := by
  rw [State.claimedMoves, State.claimedBooking, hv]
  rfl

/-! ### ID_READ's ways (R71, R72, R74) -/

theorem idElsewhere_iff (s : State) (l : LaneNo) (x : Text) : s.idElsewhere l x = true ↔
    ∃ m, m ≠ l ∧ ∃ w, s.visit m = some w ∧ (w.front.cid = some x ∨ w.rear.cid = some x) := by
  have hall : ∀ m : LaneNo, m ∈ allLanes := fun m => by cases m <;> decide
  simp [State.idElsewhere, hall, Option.any_eq_true]

theorem charged_eq (n : ReadPos) : n.charged = if n = .rear then .rear else .front := by cases n <;> rfl

/-- The position a valid ID's read names once the claim is heeded (R74). -/
def heeded (v : Visit) (own : Option Move) (n : ReadPos) : ReadPos :=
  if v.claimed = none then n
  else if own.map Move.length ≠ some .l20 then .whole
  else if n = .whole then .unknown else n

theorem takeId_elsewhere {x : Text} (h : s.idElsewhere l x = true) (n : ReadPos) :
    s.takeId l x n = (s.raiseConflict l n.charged 2, .conflict) := if_pos h

section Take
variable {x : Text} (hv : s.visit l = some v) (n : ReadPos)
include hv

theorem takeId_foreign (h : s.idElsewhere l x = false) (hc : v.claimed ≠ none) (ho : ownMove (s.claimedMoves l) x = none) :
    s.takeId l x n = (s.raiseMismatch l n.charged 1, .mismatch) := by
  rw [State.takeId, if_neg (by simp [h]), isClaimed_eq hv, if_pos (Option.isSome_iff_ne_none.mpr hc),
    (placeOfCid_none_iff ..).mpr ho]

theorem takeId_placed (h : s.idElsewhere l x = false) (ho : v.claimed = none ∨ ownMove (s.claimedMoves l) x ≠ none) :
    s.takeId l x n = s.placeRead l x (heeded v (ownMove (s.claimedMoves l) x) n) n.charged := by
  rw [State.takeId, if_neg (by simp [h]), isClaimed_eq hv]
  by_cases hc : v.claimed = none
  · rw [if_neg (by simp [hc]), heeded, if_pos hc]
  · rw [if_pos (Option.isSome_iff_ne_none.mpr hc), heeded, if_neg hc]
    have hown := ho.resolve_left hc
    obtain ⟨i, hi⟩ := Option.ne_none_iff_exists'.mp fun k => hown ((placeOfCid_none_iff ..).mp k)
    obtain ⟨m, hm⟩ := Option.ne_none_iff_exists'.mp hown
    simp only [hi, moveAt_placeOfCid hi, hm, Option.any_some, Option.map_some, bne_iff_ne, ne_eq, Option.some.injEq]
    exact (apply_ite (fun k => s.placeRead l x k n.charged) ..).symm
end Take

/-! ### The rule (R69) -/

theorem textOk_iff (n : Nat) (x : Text) : textOk n n x = true ↔ x.length = n ∧ x.all isAlnum = true := by
  simp only [textOk, Bool.and_eq_true, decide_eq_true_eq]
  exact and_congr_left fun _ => by omega

theorem ruleIdRead_formed {r : IdReq} (hl : laneOf r.lane = some l) (hf : textOk 11 11 r.text = true)
    (ht : (s.lane l).takesReads = true) : ruleIdRead s r =
      let t := if cidOk r.text then s.takeId l r.text r.pos else (s.misread l r.pos.charged, .misread)
      ⟨t.1.settle l, .ok, u8 t.2.ctorIdx⟩ :=
  (withLane_some hl _).trans ((if_neg (by simp [hf])).trans (takenRead_taken ht _))

/-- The verdict's forming keeps what an ID read shows. -/
theorem Shows.settle (h : Shows idView l t v) : Shows idView l (t.settle l) v :=
  ((Keeps.refl idView l t).settle idView_watchBlind).shows h

/-- What the statement says of a misread. -/
theorem misread_settled (hv : s.visit l = some v) (p : Pos) : let t := (s.misread l p).settle l
    (t.visit l).map (fun w => (w.front.cid, w.rear.cid)) = some (v.front.cid, v.rear.cid) ∧
    (t.lane l).counters.misreads = min 65535 ((s.lane l).counters.misreads + 1) ∧
    (t.visit l).map (fun w => (w.pos p).misreads) = some (min 255 ((v.pos p).misreads + 1)) ∧
    (t.visit l).map (fun w => (w.pos p.other).misreads) = some (v.pos p.other).misreads := by
  have hk := (misread_keeps s l p).settle idView_watchBlind
  have hs := hk.shows (misreadCounted_shows hv p)
  have hm := fun q => hs.at (p := q) (f := PosRec.misreads) (·.2.2.1) fun _ => rfl
  have hn := hm p
  have ho := hm p.other
  rw [pos_setPos, if_pos rfl] at hn
  rw [pos_setPos, if_neg (by cases p <;> decide)] at ho
  refine ⟨hs.idPair.trans ?_, hk.lane.misreads.trans (misreadCounted_counters s l p), hn, ho⟩
  cases p <;> rfl

end Sys2Proof.Machine.ReadLaws

open Sys2Proof Sys2Proof.Machine Sys2Proof.Machine.VisitLaws Sys2Proof.Machine.ReadLaws in
/-- Settles O41: the form and check digit of an ID character by character, then ID_READ by its tests in order. -/
theorem idsAreRead : Obligations.IdsAreRead := by
  refine ⟨cidOk_iff, fun s u tag body r hask hr => ?_⟩
  have answers : ∀ {a}, ruleIdRead u r = a → Answers (.idRead tag body) s 0x12 tag a.s a.status a.data :=
    fun {_} ha => answers_of_rule rfl hask hr ha
  refine ⟨fun hl => answers (withLane_none hl _), fun l hl => ?_⟩
  have rule := withLane_some (s := u) hl
  refine ⟨fun hf => answers ((rule _).trans (if_pos (Bool.eq_false_iff.mpr fun k => hf ((textOk_iff ..).mp k)))),
    fun hf ht => answers ((rule _).trans ((if_neg ?_).trans (takenRead_refused ht _))), fun hf ht v hv => ?_⟩
  · simp [(textOk_iff 11 r.text).mpr hf]
  have taken := ruleIdRead_formed hl ((textOk_iff 11 r.text).mpr hf) ht
  have elsewhere := idElsewhere_iff u l r.text
  have moves := claimedMoves_eq (s := u) (l := l) hv
  have valid : cidOk r.text = true → ∀ {t}, u.takeId l r.text r.pos = t →
      Answers (.idRead tag body) s 0x12 tag (t.1.settle l) .ok (u8 t.2.ctorIdx) :=
    fun hc {t} h => answers (a := ⟨t.1.settle l, .ok, u8 t.2.ctorIdx⟩) (taken.trans (by rw [if_pos hc, h]))
  rw [← charged_eq, ← moves]
  refine ⟨fun hc => ⟨_, answers (taken.trans (by rw [if_neg (by simp [hc])])), misread_settled hv _⟩, fun hc he => ?_,
    fun hc he hcl ho => ?_, fun hc he ho => ?_⟩
  · have hs := (raiseConflict_shows hv r.pos.charged 2).settle
    refine ⟨_, valid hc (takeId_elsewhere (elsewhere.mpr he) _), hs.idPair.trans ?_, ?_⟩
    · cases r.pos.charged <;> rfl
    · have hm := hs.at (p := r.pos.charged) (f := PosRec.conflict) (·.2.2.2.1) fun _ => rfl
      rwa [pos_setPos, if_pos rfl] at hm
  · have hs := (raiseMismatch_shows hv r.pos.charged 1).settle
    refine ⟨_, valid hc (takeId_foreign hv _ (Bool.eq_false_iff.mpr fun k => he (elsewhere.mp k)) hcl ho), hs.idPair.trans ?_, ?_⟩
    · cases r.pos.charged <;> rfl
    · have hm := hs.at (p := r.pos.charged) (f := PosRec.mismatch) (·.2.2.2.2) fun _ => rfl
      rwa [pos_setPos, if_pos rfl] at hm
  · have ht := valid hc (takeId_placed hv r.pos (Bool.eq_false_iff.mpr fun k => he (elsewhere.mp k)) ho)
    have hp := placeRead_placed hv r.text (heeded v (ownMove (u.claimedMoves l) r.text) r.pos) r.pos.charged
    rw [placeRead_result hv, placedAs_result, ← placedTable_eq] at ht
    exact ⟨_, ht, hp.ids, hp.duplicates, hp.conflict, hp.spans⟩
end

section
/-! SUPPORT. O44: raises for a visit, stored or lost, and the notices they tell (R154, R156, R157). -/

namespace Sys2Proof.Machine.ReadLaws

open Sys2Proof.Machine.VisitLaws

variable {s t u : State} {l : LaneNo} {v w : Visit} {α : Type} {φ : Pos → PosRec → α} {j k n : Nat}

/-! ### Entries told of -/

/-- What an entry tells of its case but its number. -/
abbrev Story := ExcKind × Option LaneNo × Option Nat × Option Pos × Nat × Response

/-- An entry numbered from `n` on tells the story. -/
def Tells (n : Nat) (x : Story) (t : State) : Prop := ∃ e ∈ t.exc.entries, n ≤ e.number ∧ (story e).2 = x

theorem Keeps.tells (h : Keeps φ k l s t) (hr : Room k s.exc) {x : Story} (hs : Tells n x s) : Tells n x t := by
  obtain ⟨e, he, hn, hx⟩ := hs
  obtain ⟨d, hd, hde⟩ := (h.exc.room 0 (by rwa [Nat.zero_add])).2 e he
  have hnum : d.number = e.number := congrArg Prod.fst hde
  exact ⟨d, hd, hnum ▸ hn, (congrArg Prod.snd hde).trans hx⟩

theorem Tells.from {x : Story} (h : Tells n x t) (hj : j ≤ n) : Tells j x t := by
  obtain ⟨e, he, hn, hx⟩ := h
  exact ⟨e, he, Nat.le_trans hj hn, hx⟩

theorem Keeps.roomy (h : Keeps φ k l s t) (hr : Room (j + k) s.exc) : Room j t.exc := (h.exc.room j hr).1

/-! ### A raise -/

/-- What a raise of a kind that is not SILENT does once its entry is stored. -/
theorem raiseExc_after {r : Raise} (hl : r.lane = some l) (hs : s.store.work.responseOf r.kind r.action ≠ .silent)
    (hr : Room 1 s.exc) : Keeps φ 0 l { s with exc := { s.exc with
      entries := s.exc.entries ++ [s.newEntry r (s.store.work.responseOf r.kind r.action) (s.raiseOverridden r)]
      next := s.exc.next + 1, full := s.exc.full } } (s.raiseExc r).1 := by
  simp only [State.raiseExc, if_neg hs, room_stores (j := 0) hr, Bool.false_eq_true, if_false]
  have h := fun n => (Keeps.refl φ l { s with exc := { s.exc with
      entries := s.exc.entries ++ [s.newEntry r (s.store.work.responseOf r.kind r.action) (s.raiseOverridden r)]
      next := s.exc.next + 1, full := s.exc.full } }).queueNotice n
  split
  · exact h _
  · split
    · exact h _
    · exact h _
    · exact h _
    · simp only [hl]; exact (h _).enterTrouble

/-- A raise with room is told by its entry, whatever its check's override. -/
theorem raiseVisit_tells (hv : s.visit l = some v) {c : ExcKind} {p : Option Pos} {d : Nat}
    (hs : s.store.work.responseOf c .inspect ≠ .silent) (hr : Room 1 s.exc) :
    Tells s.exc.next (c, some l, some v.number, p, d, s.store.work.responseOf c .inspect) (s.raiseVisit c l p d).1 := by
  have h := raiseExc_after (φ := fun _ _ => ()) (l := l) (r := ⟨c, some l, (s.visit l).map (·.number), p, d, .inspect⟩)
    rfl hs hr
  refine h.tells ?_ ⟨_, List.mem_append_right _ (List.mem_singleton_self _), Nat.le_refl _, ?_⟩
  · obtain ⟨hlen, hnext⟩ := hr
    exact ⟨by rw [List.length_append, List.length_singleton]; omega, by dsimp only; omega⟩
  · rw [hv]; rfl

/-- The kind's check at the visit has an override. -/
def overridden (v : Visit) (c : ExcKind) (p : Option Pos) : Bool :=
  (checkOf c p).any fun n => (v.checks.get n).override.isSome

/-- A raise for a lane's visit. -/
abbrev visitRaise (s : State) (l : LaneNo) (c : ExcKind) (p : Option Pos) (d : Nat) : Raise :=
  ⟨c, some l, (s.visit l).map (·.number), p, d, .inspect⟩

theorem raiseOverridden_visit (hv : s.visit l = some v) (c : ExcKind) (p : Option Pos) (d : Nat) :
    s.raiseOverridden (visitRaise s l c p d) = overridden v c p := by
  rw [State.raiseOverridden, overridden, visitRaise, hv, Option.map_some]
  dsimp only
  cases checkOf c p with
  | none => rfl
  | some n => simp [hv]

theorem enterTrouble_state (s : State) (l : LaneNo) (h : (s.lane l).state ≠ .closed) :
    ((s.enterTrouble l).lane l).state = .trouble := by
  by_cases ht : (s.lane l).state = .trouble
  · have he : s.enterTrouble l = s := if_pos (.inr ht)
    rw [he, ht]
  · exact (enterTrouble_shows h ht).state

section Answers
variable {c : ExcKind} {p : Option Pos} {d : Nat} (hv : s.visit l = some v)
include hv

/-- A raise is answered as OPEN under RETRY only if the response is RETRY, no override stands, and the table takes it. -/
theorem raiseVisit_openRetry (h : (s.raiseVisit c l p d).2 = .openRetry) :
    s.store.work.responseOf c .inspect = .retry ∧ overridden v c p = false ∧ s.exc.room ≠ none := by
  rw [← raiseOverridden_visit hv c p d]
  simp only [State.raiseVisit, State.raiseExc] at h
  split at h
  · cases h
  · split at h
    · cases h
    · next hr =>
      split at h
      · cases h
      · next ho =>
        refine ⟨?_, Bool.eq_false_iff.mpr ho, by rw [hr]; exact Option.some_ne_none _⟩
        split at h
        · cases h
        · cases h
        · assumption
        · cases h

/-- A raise under RETRY, not overridden, is stored OPEN where there is room. -/
theorem raiseVisit_retries (hr : Room 1 s.exc) (hs : s.store.work.responseOf c .inspect = .retry)
    (ho : overridden v c p = false) : (s.raiseVisit c l p d).2 = .openRetry := by
  rw [← raiseOverridden_visit hv c p d] at ho
  simp only [State.raiseVisit, State.raiseExc, hs, ho, room_stores (j := 0) hr, Bool.false_eq_true, if_false, reduceCtorEq]

/-- A raise under HOLD, not overridden, puts a lane in service into TROUBLE, stored or lost; a lost one sets the unrecorded-hold
flag (R157, R158). -/
theorem raiseVisit_holds (hs : s.store.work.responseOf c .inspect = .hold) (ho : overridden v c p = false) :
    ((s.lane l).state ≠ .closed → ((s.raiseVisit c l p d).1.lane l).state = .trouble) ∧
      (s.exc.room = none → (s.raiseVisit c l p d).1.exc.unrecorded.get l = true) := by
  rw [← raiseOverridden_visit hv c p d] at ho
  cases hr : s.exc.room with
  | none =>
    have hx : (s.raiseVisit c l p d).1 = State.enterTrouble { s with exc := { s.exc with
        lost := satInc s.exc.lost, full := true, unrecorded := s.exc.unrecorded.set l true } } l := by
      simp [State.raiseVisit, State.raiseExc, State.loseException, hs, ho, hr]
    rw [hx]
    refine ⟨fun hc => enterTrouble_state _ _ hc, fun _ => ((Keeps.refl (fun _ _ => ()) l _).enterTrouble).exc.unrecorded ?_⟩
    exact PerLane.get_set_same ..
  | some x =>
    refine ⟨fun hc => ?_, fun h => by cases h⟩
    simp only [State.raiseVisit, State.raiseExc, hs, ho, hr, reduceCtorEq, if_false]
    exact enterTrouble_state _ _ (by rwa [queueNotice_lane])
end Answers

/-! ### The full table (R157) -/

/-- The table takes no entry and gives none up. -/
def Full (x : ExcTable) : Prop := 65535 < x.next ∨ 32 ≤ x.entries.length ∧ ∀ e ∈ x.entries, e.state = .opened

theorem Full.room {x : ExcTable} (h : Full x) : x.room = none := by
  unfold ExcTable.room
  split
  · rfl
  · next hn =>
    obtain ⟨hlen, hall⟩ := h.resolve_left hn
    have hf : ∀ st : EntryState, st ≠ .opened → x.entries.find? (fun e => e.state == st) = none := fun st hst =>
      List.find?_eq_none.mpr fun e he => by rw [hall e he, beq_iff_eq]; exact hst.symm
    rw [if_neg (by unfold Config.entryMax; omega), reclaimEntry, hf _ (by decide), hf _ (by decide)]
    rfl

theorem Full.of_map {x y : ExcTable} (h : Full x) (f : Entry → Entry) (hf : ∀ e, (f e).state = e.state)
    (he : y.entries = x.entries.map f) (hn : y.next = x.next) : Full y := by
  unfold Full at *
  rw [he, hn, List.length_map]
  refine h.imp_right fun ⟨hlen, hall⟩ => ⟨hlen, fun e hm => ?_⟩
  obtain ⟨d, hd, rfl⟩ := List.mem_map.mp hm
  exact (hf d).trans (hall d hd)

theorem Full.enterTrouble (h : Full s.exc) (l : LaneNo) : Full (s.enterTrouble l).exc := by
  by_cases hc : (s.lane l).state = .closed ∨ (s.lane l).state = .trouble
  · rwa [show s.enterTrouble l = s from if_pos hc]
  · have k := enterTrouble_shows (fun e => hc (.inl e)) fun e => hc (.inr e)
    refine h.of_map _ (fun e => ?_) k.entries k.next
    split <;> rfl

theorem Full.raiseVisit (h : Full s.exc) (c : ExcKind) (l : LaneNo) (p : Option Pos) (d : Nat) :
    Full (s.raiseVisit c l p d).1.exc := by
  simp only [State.raiseVisit, State.raiseExc, h.room, State.loseException]
  split
  · exact h
  · split
    · exact Full.enterTrouble (s := { s with exc := { s.exc with
        lost := satInc s.exc.lost, full := true, unrecorded := s.exc.unrecorded.set l true } }) h l
    · exact h

/-! ### The notices waiting -/

/-- At most `n` notices more wait. -/
def Told (n : Nat) (s t : State) : Prop := t.link.noticeCount ≤ s.link.noticeCount + n

theorem Told.refl (s : State) : Told 0 s s := Nat.le_refl _

theorem Told.same (h : Told n s t) (hu : u.link = t.link) : Told n s u := by
  rwa [Told, hu]

theorem Told.mono (h : Told j s t) (hj : j ≤ n) : Told n s t := by
  unfold Told at *
  omega

theorem Told.ite {c : Prop} [Decidable c] (h : Told n s t) (i : Told n s u) : Told n s (if c then t else u) := by
  split
  · exact h
  · exact i

theorem queueNotice_goes {m : Notice} (hm : s.store.work.mask m.kind = true) (hc : s.link.noticeCount < 32) :
    (s.queueNotice m).link.outbox = s.link.outbox ++ [.notice m] := by
  rw [State.queueNotice, if_neg (by simp [hm]), if_pos (show s.link.noticeCount < Config.noticeMax from hc)]

theorem Told.queueNotice (h : Told n s t) (m : Notice) : Told (n + 1) s (t.queueNotice m) := by
  unfold Told State.queueNotice at *
  split
  · omega
  · split
    · simp only [Link.noticeCount, List.countP_append, List.countP_singleton, if_true] at h ⊢
      omega
    · simp only [Link.noticeCount] at h ⊢
      omega

theorem Told.changeLane (h : Told n s t) (l : LaneNo) (now : LaneState) (c : LaneCause) :
    Told (n + 1) s (t.changeLane l now c) := .ite (h.mono (Nat.le_succ n)) (.queueNotice (h.same (by rfl)) _)

theorem Told.enterTrouble (h : Told n s t) (l : LaneNo) : Told (n + 1) s (t.enterTrouble l) :=
  .ite (h.mono (Nat.le_succ n)) (.changeLane (h.same (by rfl)) _ _ _)

theorem Told.raiseVisit (h : Told n s t) (c : ExcKind) (l : LaneNo) (p : Option Pos) (d : Nat) :
    Told (n + 2) s (t.raiseVisit c l p d).1 := by
  have h0 : Told (n + 2) s t := h.mono (by omega)
  simp only [State.raiseVisit, State.raiseExc, State.loseException]
  split
  · exact h0
  · split
    · dsimp only
      split
      · exact (Told.enterTrouble (h.same (by rfl)) l).mono (by omega)
      · exact h0.same rfl
    · have h1 : ∀ x : State, x.link = t.link → ∀ m, Told (n + 1) s (x.queueNotice m) :=
        fun x hx m => (h.same hx).queueNotice m
      have h2 := fun x hx m => (h1 x hx m).mono (Nat.le_succ _)
      split
      · exact h2 _ (by rfl) _
      · split
        · exact h2 _ (by rfl) _
        · exact h2 _ (by rfl) _
        · exact h2 _ (by rfl) _
        · exact (h1 _ (by rfl) _).enterTrouble l

end Sys2Proof.Machine.ReadLaws
end

section
/-! SUPPORT. O44: what the expiry of a wait keeps, the work on one position told apart from that on the other (R94, R95,
R110, R111). -/

namespace Sys2Proof.Machine.ReadLaws

open Sys2Proof.Machine.VisitLaws

variable {s t u : State} {l : LaneNo} {v w : Visit} {α : Type} {φ : Pos → PosRec → α} {j k n : Nat} {p q : Pos}

/-! ### One position seen alone -/

/-- The record of one position without its watch mark. -/
def keepAt (q p : Pos) (r : PosRec) : Option PosRec := if p = q then some { r with watch := none } else none

theorem keepAt_watchBlind (q : Pos) : WatchBlind (keepAt q) := fun _ _ _ => rfl

theorem keepAt_other (h : p ≠ q) (a b : PosRec) : keepAt q p a = keepAt q p b := by
  rw [keepAt, keepAt, if_neg h, if_neg h]

theorem keepAt_partsBlind (h : p ≠ q) : PartsBlind (keepAt q) p := ⟨fun _ _ => keepAt_other h _ _, fun _ _ => keepAt_other h _ _⟩

theorem keepAt_same {a b : PosRec} (h : keepAt q q a = keepAt q q b) : a = { b with watch := a.watch } := by
  rw [keepAt, keepAt, if_pos rfl, if_pos rfl, Option.some.injEq] at h
  calc a = { ({ a with watch := none } : PosRec) with watch := a.watch } := rfl
    _ = { ({ b with watch := none } : PosRec) with watch := a.watch } := by rw [h]
    _ = { b with watch := a.watch } := rfl

/-- The position is as it was but for its watch mark. -/
theorem VisitKept.record (h : VisitKept (keepAt q) v w) : w.pos q = { v.pos q with watch := (w.pos q).watch } :=
  keepAt_same (h.pos q)

/-- The state in which a work on both positions, FRONT first, comes to `q`. -/
def beforeAt (f : State → Pos → State) (s : State) : Pos → State
  | .front => s
  | .rear => f s .front

/-- What the work on the one position leaves alone stands around the work on the other. -/
theorem both_around {f : State → Pos → State} {φ : Pos → PosRec → α} (q : Pos)
    (hf : ∀ p, p ≠ q → ∀ u, Keeps φ 1 l u (f u p)) (s : State) :
    Keeps φ 1 l s (beforeAt f s q) ∧ Keeps φ 1 l (f (beforeAt f s q) q) (bothPos.foldl f s) := by
  cases q
  · exact ⟨(Keeps.refl φ l s).mono (Nat.zero_le 1), hf .rear (by decide) _⟩
  · exact ⟨hf .front (by decide) _, (Keeps.refl φ l _).mono (Nat.zero_le 1)⟩

/-- A work that keeps something at both positions keeps it as a whole. -/
theorem both_keep {f : State → Pos → State} {φ : Pos → PosRec → α} (hf : ∀ p u, Keeps φ 1 l u (f u p)) (s : State) :
    Keeps φ 2 l s (bothPos.foldl f s) := (hf .front s).trans (hf .rear _)

/-! ### Seal parts at the end of their wait -/

theorem endSealWait_marked (hm : (s.posRec l p).sealPart.missingMark = true) (n : Nat) :
    s.endSealWait l p n = s.sealMissing l p := if_pos hm

section Parts
variable (hφ : PartsBlind φ p)
include hφ

theorem Keeps.sealMissing (h : Keeps φ k l s t) : Keeps φ k l s (t.sealMissing l p) := (h.modSeal hφ _).evaluate _

theorem Keeps.closeSeal (h : Keeps φ k l s t) : Keeps φ (k + 1) l s (t.closeSeal l p) := by
  have h0 := h.mono (Nat.le_succ k)
  simp only [State.closeSeal]
  split
  · exact .ite (h0.modSeal hφ _)
      (.evaluate (.ite (.raiseSeal hφ.marks (h.modSeal hφ _) _ _) (h0.modSeal hφ _)) _)
  · exact h0.modSeal hφ _

/-- Once SEAL_MISSING is raised, only the part itself changes, and a REREAD is told. -/
theorem endSealWait_after (hm : (s.posRec l p).sealPart.missingMark = false) (n : Nat) :
    Keeps φ 0 l (s.raiseVisit .sealMissing l (some p) n).1 (s.endSealWait l p n) := by
  have h := (Keeps.refl φ l (s.raiseVisit .sealMissing l (some p) n).1).modSeal hφ fun y => { y with missingMark := true }
  simp only [State.endSealWait, hm, Bool.false_eq_true, if_false]
  split
  · unfold State.rereadSeal
    split
    · exact (h.modSeal hφ _).queueNotice _
    · exact h.modSeal hφ _
  · exact (h.modSeal hφ _).sealMissing hφ
  · exact h.sealMissing hφ

theorem expireSeal_keeps (s : State) : Keeps φ 1 l s (s.expireSeal l p) := by
  have h := Keeps.refl φ l s
  have h0 := h.mono (Nat.zero_le 1)
  simp only [State.expireSeal]
  refine .ite h0 ?_
  split
  · exact h0
  · refine .ite ?_ (h.closeSeal hφ)
    cases hm : (s.posRec l p).sealPart.missingMark
    · exact (h.raiseVisit _ _ _).trans (endSealWait_after hφ hm _)
    · rw [endSealWait_marked hm]
      exact h0.sealMissing hφ

/-! ### Damage parts at the end of their wait -/

theorem Keeps.unsurveyed (h : Keeps φ k l s t) : Keeps φ k l s (t.unsurveyed l p) := (h.modDamage hφ _).evaluate _

/-- Once SURVEY_MISSING is raised, only the part itself changes, and a REREAD is told. -/
theorem endSurveyWait_after (hm : (s.posRec l p).damage.missingMark = false) :
    Keeps φ 0 l (s.raiseVisit .surveyMissing l (some p) 0).1 (s.endSurveyWait l p) := by
  have h := (Keeps.refl φ l (s.raiseVisit .surveyMissing l (some p) 0).1).modDamage hφ fun y => { y with missingMark := true }
  simp only [State.endSurveyWait, hm, Bool.false_eq_true, if_false]
  split
  · exact (h.modDamage hφ _).queueNotice _
  · exact (h.modDamage hφ _).unsurveyed hφ
  · exact h.unsurveyed hφ

theorem expireSurvey_keeps (s : State) : Keeps φ 1 l s (s.expireSurvey l p) := by
  have h := Keeps.refl φ l s
  have h0 := h.mono (Nat.zero_le 1)
  simp only [State.expireSurvey]
  refine .ite h0 (.ite (h0.modDamage hφ _) ?_)
  cases hm : (s.posRec l p).damage.missingMark
  · exact (h.raiseVisit _ _ _).trans (endSurveyWait_after hφ hm)
  · rw [State.endSurveyWait, if_pos hm]
    exact h0.unsurveyed hφ
end Parts

end Sys2Proof.Machine.ReadLaws
end

section
/-! SUPPORT. O44: what the expiry of a wait makes of the part of one position (R94, R95, R111). -/

namespace Sys2Proof.Machine.ReadLaws

open Sys2Proof.Machine.VisitLaws

variable {s t u : State} {l : LaneNo} {v w : Visit} {k n : Nat} {q : Pos} {β : Type} {ψ : PosRec → β} {a : β}

/-! ### What one position ends as -/

/-- The position of the lane's visit ends with the value. -/
def Ends (ψ : PosRec → β) (l : LaneNo) (q : Pos) (a : β) (t : State) : Prop :=
  (t.visit l).map (fun w => ψ (w.pos q)) = some a

theorem Ends.of_visit (hv : s.visit l = some v) (h : ψ (v.pos q) = a) : Ends ψ l q a s := by
  rw [Ends, hv, ← h]
  rfl

theorem Ends.keeps (h : Ends ψ l q a s) (hk : Keeps (fun _ => ψ) k l s t) : Ends ψ l q a t := by
  obtain ⟨v, hv, rfl⟩ := Option.map_eq_some_iff.mp h
  obtain ⟨w, hw, hvw⟩ := hk.lane.visit v hv
  exact .of_visit hw (hvw.pos q)

/-- A value that does not show the watch mark stands while the position does. -/
theorem Ends.stays (h : Ends ψ l q a s) (hk : Keeps (keepAt q) k l s t) (hψ : ∀ r m, ψ { r with watch := m } = ψ r) :
    Ends ψ l q a t := by
  obtain ⟨v, hv, rfl⟩ := Option.map_eq_some_iff.mp h
  obtain ⟨w, hw, hvw⟩ := hk.lane.visit v hv
  exact .of_visit hw (by rw [hvw.record, hψ])

theorem Ends.modPos {f : PosRec → PosRec} (h : Ends (fun r => ψ (f r)) l q a t) : Ends ψ l q a (t.modPos l q f) := by
  obtain ⟨v, hv, rfl⟩ := Option.map_eq_some_iff.mp h
  refine .of_visit (v := v.setPos q (f (v.pos q))) ?_ (by rw [pos_setPos, if_pos rfl])
  rw [State.modPos, State.modVisit_visit, hv]
  rfl

theorem Ends.const (h : Ends ψ l q a t) {γ : Type} (b : γ) : Ends (fun _ => b) l q b t := by
  obtain ⟨v, hv, -⟩ := Option.map_eq_some_iff.mp h
  exact .of_visit hv rfl

/-! ### Seal parts -/

/-- The phase and the outcome of a seal part. -/
def sealEnd (r : PosRec) : Phase × SealOutcome := (r.sealPart.phase, r.sealPart.outcome)

theorem sealEnd_marksBlind : MarksBlind (fun _ => sealEnd) q := fun r _ hf => by
  obtain ⟨hp, ho⟩ := hf r.sealPart
  exact Prod.ext hp ho

variable {x : Phase × SealOutcome}

theorem sealMissing_ends (h : Ends sealEnd l q x s) : Ends sealEnd l q (.closed, .missing) (s.sealMissing l q) :=
  Ends.keeps (.modPos (f := fun r => r.modSeal fun x => { x with outcome := .missing, phase := .closed })
    (h.const (Phase.closed, SealOutcome.missing))) ((Keeps.refl ..).evaluate _)

/-- What R91 makes of a part that is closed. -/
def closedOutcome (m : Move) (z : SealPart) : SealOutcome :=
  if z.outcome = .ok ∨ z.outcome = .notApplicable then z.outcome else sealOutcome m z.seen .closed

theorem closeSeal_ends (hv : s.visit l = some v) {m : Move} (hm : s.moveOf l q = some m)
    (ho : (v.pos q).sealPart.phase = .opened) :
    Ends sealEnd l q (.closed, closedOutcome m (v.pos q).sealPart) (s.closeSeal l q) := by
  have hf : (v.pos q).sealPart.final = true ↔ (v.pos q).sealPart.outcome = .ok ∨ (v.pos q).sealPart.outcome = .notApplicable := by
    simp [SealPart.final, ho]
  simp only [State.closeSeal, hm, posRec_eq hv, closedOutcome, hf]
  split
  · exact .modPos (.of_visit hv rfl)
  · have h1 := Keeps.refl (fun _ => sealEnd) l (s.modPos l q fun r => r.modSeal fun x =>
      { x with outcome := sealOutcome m (v.pos q).sealPart.seen .closed, phase := .closed })
    exact Ends.keeps (.modPos (.of_visit hv rfl))
      (Keeps.evaluate (.ite (.raiseSeal sealEnd_marksBlind h1 _ _) (h1.mono (Nat.le_succ 0))) _)

/-- SEAL_MISSING raised, and its mark set. -/
def missingRaised (s : State) (l : LaneNo) (q : Pos) (n : Nat) : State :=
  (s.raiseVisit .sealMissing l (some q) n).1.modPos l q fun x => x.modSeal fun y => { y with missingMark := true }

theorem missingRaised_ends (h : Ends sealEnd l q x s) (n : Nat) : Ends sealEnd l q x (missingRaised s l q n) :=
  h.keeps (((Keeps.refl ..).raiseVisit _ _ _).modPos fun _ => sealEnd_marksBlind (q := q) _ _ fun _ => ⟨rfl, rfl⟩)

/-- A part that does not come to wait for a reread is MISSING (R95). -/
theorem endSealWait_missing (h : Ends sealEnd l q x s)
    (hr : (s.posRec l q).sealPart.missingMark = true ∨ (s.raiseVisit .sealMissing l (some q) n).2 ≠ .openRetry) :
    Ends sealEnd l q (.closed, .missing) (s.endSealWait l q n) := by
  have h1 := missingRaised_ends h n
  simp only [State.endSealWait]
  split
  · exact sealMissing_ends h
  · next hm =>
    split
    · next hx => exact absurd hx (hr.resolve_left hm)
    · exact sealMissing_ends (.modPos h1)
    · exact sealMissing_ends h1

/-- The part under RETRY, extended. -/
theorem endSealWait_retried (hm : (s.posRec l q).sealPart.missingMark = false)
    (hr : (s.raiseVisit .sealMissing l (some q) n).2 = .openRetry) : s.endSealWait l q n =
      ((missingRaised s l q n).modPos l q fun x => x.modSeal fun y =>
        { y with phase := .extended, entry := some s.exc.next }).rereadSeal l q := by
  simp only [State.endSealWait, hm, Bool.false_eq_true, if_false, hr, missingRaised]

theorem rereadSeal_visit (s : State) (l : LaneNo) (p : Pos) : (s.rereadSeal l p).visit l = s.visit l := by
  unfold State.rereadSeal
  split
  · rw [State.visit, State.reread, queueNotice_lane]; rfl
  · rfl

theorem endSealWait_extended (hv : s.visit l = some v) (hm : (v.pos q).sealPart.missingMark = false)
    (hr : (s.raiseVisit .sealMissing l (some q) n).2 = .openRetry) :
    Ends sealEnd l q (.extended, (v.pos q).sealPart.outcome) (s.endSealWait l q n) := by
  rw [endSealWait_retried (by rw [posRec_eq hv, hm]) hr, Ends, rereadSeal_visit]
  have h := missingRaised_ends (Ends.of_visit (ψ := sealEnd) (q := q) hv rfl) n
  obtain ⟨w, hw, he⟩ := Option.map_eq_some_iff.mp h
  exact Ends.modPos (.of_visit hw (congrArg (fun x => (Phase.extended, x.2)) he))

end Sys2Proof.Machine.ReadLaws
end

section
/-! SUPPORT. O44: the REREAD notices, and what the expiry of the survey wait makes of the damage part of one position (R96,
R110, R111). -/

namespace Sys2Proof.Machine.ReadLaws

open Sys2Proof.Machine.VisitLaws

variable {s t u : State} {l : LaneNo} {v w : Visit} {k n : Nat} {q : Pos} {m : Move} {α : Type} {φ : Pos → PosRec → α}

/-! ### The move of a position -/

theorem Keeps.claimedMoves (h : Keeps φ k l s t) (hv : s.visit l = some v) : t.claimedMoves l = s.claimedMoves l := by
  obtain ⟨w, hw, hvw⟩ := h.lane.visit v hv
  rw [claimedMoves_eq (s := t) hw, claimedMoves_eq (s := s) hv, hvw.claimed, h.book]

theorem moveOf_eq (hv : s.visit l = some v) (q : Pos) :
    s.moveOf l q = (v.pos q).sealPart.move.bind fun m => moveAt (s.claimedMoves l) m.1 := by
  rw [State.moveOf, posRec_eq hv]

/-- What a REREAD names of a seal part: its move and the seals seen. -/
def sealCase (_ : Pos) (r : PosRec) : Option (Nat × Basis) × List SeenSeal := (r.sealPart.move, r.sealPart.seen)

theorem Keeps.moveOf (h : Keeps sealCase k l s t) (hv : s.visit l = some v) (q : Pos) : t.moveOf l q = s.moveOf l q := by
  obtain ⟨w, hw, hvw⟩ := h.lane.visit v hv
  have hm : (w.pos q).sealPart.move = (v.pos q).sealPart.move := congrArg Prod.fst (hvw.pos q)
  rw [moveOf_eq (s := t) hw, moveOf_eq (s := s) hv, h.claimedMoves hv, hm]

/-! ### The REREAD notices (R96, R111) -/

/-- A REREAD of a subject as the statement writes it. -/
def rereadOf (subject : Byte) (l : LaneNo) (n : Nat) (q : Pos) (more : List Byte) : Notice :=
  ⟨.reread, [subject, BitVec.ofNat 8 (l.ctorIdx + 1)] ++ u16 n ++ [BitVec.ofNat 8 q.ctorIdx] ++ more⟩

theorem reread_goes (hv : s.visit l = some v) (hm : s.store.work.mask .reread = true) (hn : s.link.noticeCount < 32)
    (subject : Nat) (q : Pos) (more : List Byte) :
    .notice (rereadOf (BitVec.ofNat 8 subject) l v.number q more) ∈ (s.reread subject l q more).link.outbox := by
  have he : rereadOf (BitVec.ofNat 8 subject) l v.number q more =
      ⟨.reread, u8 subject ++ laneField l ++ u16 (s.lane l).visitNumber ++ posField q ++ more⟩ := by
    rw [visitNumber_of_visit hv]
    cases q <;> rfl
  rw [he, State.reread, queueNotice_goes hm hn]
  exact List.mem_append_right _ (List.mem_singleton_self _)

theorem missingRaised_case (s : State) (l : LaneNo) (q : Pos) (n : Nat) : Keeps sealCase 1 l s (missingRaised s l q n) :=
  ((Keeps.refl sealCase l s).raiseVisit .sealMissing (some q) n).modPos (p := q)
    (f := fun x => x.modSeal fun y => { y with missingMark := true }) fun _ => rfl

/-- The REREAD of a seal part that is extended. -/
theorem endSealWait_rereads (hv : s.visit l = some v) (hmv : s.moveOf l q = some m)
    (hm : (v.pos q).sealPart.missingMark = false) (hr : (s.raiseVisit .sealMissing l (some q) n).2 = .openRetry)
    (hmask : s.store.work.mask .reread = true) (hn : s.link.noticeCount < 30) :
    .notice (rereadOf 1 l v.number q (textField (m.cid.getD []) ++
      listField textField (missingSeals m.seals (v.pos q).sealPart.seen))) ∈ (s.endSealWait l q n).link.outbox := by
  have hk := (missingRaised_case s l q n).modPos (p := q)
    (f := fun x => x.modSeal fun y => { y with phase := .extended, entry := some s.exc.next }) fun _ => rfl
  obtain ⟨w, hw, hvw⟩ := hk.lane.visit v hv
  have hseen : (w.pos q).sealPart.seen = (v.pos q).sealPart.seen := congrArg Prod.snd (hvw.pos q)
  have hcount := (Told.refl s).raiseVisit .sealMissing l (some q) n
  have hgo := reread_goes hw (by rw [hk.store]; exact hmask) (Nat.lt_of_le_of_lt hcount (by omega)) 1 q
    (textField (m.cid.getD []) ++ listField textField (missingSeals m.seals (v.pos q).sealPart.seen))
  rw [endSealWait_retried (by rw [posRec_eq hv, hm]) hr, State.rereadSeal, State.moveCid, hk.moveOf hv, hmv, posRec_eq hw, hseen]
  rwa [hvw.number] at hgo

/-! ### Damage parts -/

/-- What the end of the survey wait makes of a damage part. -/
def damageEnd (r : PosRec) : Bool × Phase × DamageOutcome × Bool :=
  (r.damage.missingMark, r.damage.phase, r.damage.outcome, r.damage.effectInspect)

/-- SURVEY_MISSING raised, and its mark set. -/
def surveyRaised (s : State) (l : LaneNo) (q : Pos) : State :=
  (s.raiseVisit .surveyMissing l (some q) 0).1.modPos l q fun x => x.modDamage fun y => { y with missingMark := true }

theorem surveyRaised_ends (hv : s.visit l = some v) (q : Pos) : Ends damageEnd l q
    (true, (v.pos q).damage.phase, (v.pos q).damage.outcome, (v.pos q).damage.effectInspect) (surveyRaised s l q) := by
  have h : Ends (fun r => (true, (damageEnd r).2)) l q (true, (damageEnd (v.pos q)).2) s := .of_visit hv rfl
  exact Ends.modPos (h.keeps ((Keeps.refl ..).raiseVisit _ _ _))

theorem unsurveyed_ends {x : Bool × Phase × DamageOutcome × Bool} (h : Ends damageEnd l q x s) :
    Ends damageEnd l q (x.1, .closed, .unsurveyed, s.store.work.surveyMissingInspect) (s.unsurveyed l q) := by
  obtain ⟨v, hv, rfl⟩ := Option.map_eq_some_iff.mp h
  exact Ends.keeps (.modPos (.of_visit hv rfl)) ((Keeps.refl ..).evaluate _)

/-- A part that does not come to wait for a reread is UNSURVEYED (R111). -/
theorem endSurveyWait_unsurveyed (hv : s.visit l = some v)
    (hr : (v.pos q).damage.missingMark = true ∨ (s.raiseVisit .surveyMissing l (some q) 0).2 ≠ .openRetry) :
    Ends damageEnd l q (true, .closed, .unsurveyed, s.store.work.surveyMissingInspect) (s.endSurveyWait l q) := by
  have h1 := surveyRaised_ends hv q
  have hstore := ((Keeps.refl (fun _ _ => ()) l s).raiseVisit .surveyMissing (some q) 0).store
  have hend : ∀ {t : State}, t.store = s.store → Ends damageEnd l q _ t →
      Ends damageEnd l q (true, .closed, .unsurveyed, s.store.work.surveyMissingInspect) (t.unsurveyed l q) :=
    fun ht h => ht ▸ unsurveyed_ends (x := (true, (v.pos q).damage.phase, (v.pos q).damage.outcome,
      (v.pos q).damage.effectInspect)) h
  simp only [State.endSurveyWait, posRec_eq hv]
  split
  · next hm => exact hend rfl (.of_visit hv (by rw [damageEnd, hm]))
  · next hm =>
    split
    · next hx => exact absurd hx (hr.resolve_left hm)
    · exact hend hstore (.modPos h1)
    · exact hend hstore h1

theorem endSurveyWait_retried (hm : (s.posRec l q).damage.missingMark = false)
    (hr : (s.raiseVisit .surveyMissing l (some q) 0).2 = .openRetry) : s.endSurveyWait l q =
      ((surveyRaised s l q).modPos l q fun x => x.modDamage fun y =>
        { y with phase := .extended, entry := some s.exc.next }).rereadSurvey l q := by
  simp only [State.endSurveyWait, hm, Bool.false_eq_true, if_false, hr, surveyRaised]

theorem endSurveyWait_extended (hv : s.visit l = some v) (hm : (v.pos q).damage.missingMark = false)
    (hr : (s.raiseVisit .surveyMissing l (some q) 0).2 = .openRetry) : Ends damageEnd l q
      (true, .extended, (v.pos q).damage.outcome, (v.pos q).damage.effectInspect) (s.endSurveyWait l q) := by
  rw [endSurveyWait_retried (by rw [posRec_eq hv, hm]) hr]
  obtain ⟨w, hw, he⟩ := Option.map_eq_some_iff.mp (surveyRaised_ends hv q)
  refine Ends.keeps (.modPos (.of_visit hw ?_)) ((Keeps.refl ..).queueNotice _)
  exact congrArg (fun x => (x.1, Phase.extended, x.2.2)) he

theorem surveyRaised_case (s : State) (l : LaneNo) (q : Pos) : Keeps sealCase 1 l s (surveyRaised s l q) :=
  ((Keeps.refl sealCase l s).raiseVisit .surveyMissing (some q) 0).modPos (p := q)
    (f := fun x => x.modDamage fun y => { y with missingMark := true }) fun _ => rfl

/-- The REREAD of a damage part that is extended. -/
theorem endSurveyWait_rereads (hv : s.visit l = some v) (hmv : s.moveOf l q = some m)
    (hm : (v.pos q).damage.missingMark = false) (hr : (s.raiseVisit .surveyMissing l (some q) 0).2 = .openRetry)
    (hmask : s.store.work.mask .reread = true) (hn : s.link.noticeCount < 30) :
    .notice (rereadOf 2 l v.number q (textField (m.cid.getD []))) ∈ (s.endSurveyWait l q).link.outbox := by
  have hk := (surveyRaised_case s l q).modPos (p := q)
    (f := fun x => x.modDamage fun y => { y with phase := .extended, entry := some s.exc.next }) fun _ => rfl
  obtain ⟨w, hw, hvw⟩ := hk.lane.visit v hv
  have hcount := (Told.refl s).raiseVisit .surveyMissing l (some q) 0
  have hgo := reread_goes hw (by rw [hk.store]; exact hmask) (Nat.lt_of_le_of_lt hcount (by omega)) 2 q
    (textField (m.cid.getD []))
  rw [endSurveyWait_retried (by rw [posRec_eq hv, hm]) hr, State.rereadSurvey, State.moveCid, hk.moveOf hv, hmv]
  rwa [hvw.number] at hgo

end Sys2Proof.Machine.ReadLaws
end

section
/-! SUPPORT. O44: the turn of one position at the expiry of a wait, and what its raise comes to (R156, R157). -/

namespace Sys2Proof.Machine.ReadLaws

open Sys2Proof.Machine.VisitLaws

variable {s t u x : State} {l : LaneNo} {v w : Visit} {j k n : Nat} {q : Pos} {α : Type} {φ : Pos → PosRec → α}

/-! ### The turn of a position -/

theorem Keeps.forget (h : Keeps φ k l s t) : Keeps (fun _ _ => ()) k l s t where
  lane := ⟨fun v hv =>
    have ⟨w, hw, hk⟩ := h.lane.visit v hv
    ⟨w, hw, hk.number, hk.claimed, hk.override, fun _ => rfl, hk.sealWait, hk.surveyWait⟩,
    h.lane.opened, h.lane.trouble, h.lane.misreads, h.lane.duplicates⟩
  book := h.book
  store := h.store
  bays := h.bays
  exc := h.exc
  outbox := h.outbox

theorem VisitKept.overridden (h : VisitKept φ v w) (c : ExcKind) (p : Option Pos) : overridden w c p = overridden v c p := by
  unfold ReadLaws.overridden
  cases checkOf c p with
  | none => rfl
  | some n => simp only [Option.any_some, h.override]

/-- The work `x` of the position `q`, done in `u` on its visit `w`, between the start in `s` on the visit `v` and the end in
`t`. -/
structure Turn (l : LaneNo) (q : Pos) (j : Nat) (s : State) (v : Visit) (u : State) (w : Visit) (x t : State) : Prop where
  started : s.visit l = some v
  before : Keeps (keepAt q) j l s u
  visit : u.visit l = some w
  kept : VisitKept (keepAt q) v w
  after : Keeps (keepAt q) 6 l x t

/-- A work on both positions with the verdict's forming behind it has a turn for each. -/
theorem turn_of_both {f : State → Pos → State} (hf : ∀ p, p ≠ q → ∀ u, Keeps (keepAt q) 1 l u (f u p)) {s0 : State}
    (hv : s.visit l = some v) (h : Keeps (keepAt q) j l s s0) :
    ∃ w, Turn l q (j + 1) s v (beforeAt f s0 q) w (f (beforeAt f s0 q) q) ((bothPos.foldl f s0).settle l) := by
  obtain ⟨hb, ha⟩ := both_around q hf s0
  have hb' := h.trans hb
  obtain ⟨w, hw, hvw⟩ := hb'.lane.visit v hv
  exact ⟨w, hv, hb', hw, hvw, ha.settle (keepAt_watchBlind q)⟩

namespace Turn
variable (T : Turn l q j s v u w x t)
include T

theorem sealPart : (w.pos q).sealPart = (v.pos q).sealPart := by rw [T.kept.record]

theorem damage : (w.pos q).damage = (v.pos q).damage := by rw [T.kept.record]

theorem moves : u.claimedMoves l = s.claimedMoves l := T.before.claimedMoves T.started

theorem overridden (c : ExcKind) : overridden w c (some q) = overridden v c (some q) := T.kept.overridden c _

theorem moveOf : u.moveOf l q = (v.pos q).sealPart.move.bind fun m => moveAt (s.claimedMoves l) m.1 := by
  rw [moveOf_eq T.visit, T.sealPart, T.moves]

/-! ### The raise of the turn -/

section Raised
variable {c : ExcKind} {d : Nat} (hx : Keeps (fun _ _ => ()) 0 l (u.raiseVisit c l (some q) d).1 x)
include hx

/-- With room the raise's entry stands at the end. -/
theorem tells (hr : Room (j + 7) s.exc) (hs : s.store.work.responseOf c .inspect ≠ .silent) :
    Tells s.exc.next (c, some l, some v.number, some q, d, s.store.work.responseOf c .inspect) t := by
  have hu : Room 7 u.exc := T.before.roomy (by rwa [Nat.add_comm])
  have h := raiseVisit_tells (c := c) (p := some q) (d := d) T.visit (by rwa [T.before.store]) (hu.mono (by omega))
  rw [T.kept.number, T.before.store] at h
  have hr1 : Room 6 (u.raiseVisit c l (some q) d).1.exc :=
    ((Keeps.refl (fun _ _ => ()) l u).raiseVisit c (some q) d).roomy hu
  exact ((hx.trans T.after.forget).tells hr1 h).from T.before.exc.next

/-- Under HOLD, no override standing, the lane is in TROUBLE at the end, and a lost exception has set its flag. -/
theorem holds (hs : s.store.work.responseOf c .inspect = .hold)
    (ho : ReadLaws.overridden v c (some q) = false) :
    ((s.lane l).state ≠ .closed → (t.lane l).state = .trouble) ∧ (u.exc.room = none → t.exc.unrecorded.get l = true) := by
  obtain ⟨ht, hu⟩ := raiseVisit_holds (d := d) T.visit (by rwa [T.before.store])
    (by rwa [T.overridden])
  have hk := hx.trans T.after.forget
  exact ⟨fun hc => hk.lane.trouble (ht (T.before.lane.opened hc)), fun h => hk.exc.unrecorded (hu h)⟩
end Raised

/-- With room and no override a raise under RETRY is stored OPEN. -/
theorem retries {c : ExcKind} {d : Nat} (hr : Room (j + 7) s.exc) (hs : s.store.work.responseOf c .inspect = .retry)
    (ho : ReadLaws.overridden v c (some q) = false) : (u.raiseVisit c l (some q) d).2 = .openRetry :=
  raiseVisit_retries T.visit (T.before.roomy (hr.mono (by omega))) (by rwa [T.before.store]) (by rwa [T.overridden])

/-- Only a raise under RETRY without an override is answered so, and only where the table takes it. -/
theorem openRetry {c : ExcKind} {d : Nat} (h : (u.raiseVisit c l (some q) d).2 = .openRetry) :
    s.store.work.responseOf c .inspect = .retry ∧ ReadLaws.overridden v c (some q) = false ∧ u.exc.room ≠ none := by
  obtain ⟨hs, ho, hr⟩ := raiseVisit_openRetry T.visit h
  exact ⟨by rwa [T.before.store] at hs, by rwa [T.overridden] at ho, hr⟩

/-- What the turn ends the position as stands at the end. -/
theorem ends {β : Type} {ψ : PosRec → β} {a : β} (h : Ends ψ l q a x) (hψ : ∀ r m, ψ { r with watch := m } = ψ r) :
    Ends ψ l q a t := h.stays T.after hψ
end Turn

/-! ### The entries and responses as the statement writes them -/

theorem Tells.raised {c : ExcKind} {L : Option LaneNo} {N : Option Nat} {P : Option Pos} {d : Nat} {r : Response}
    (h : Tells n (c, L, N, P, d, r) t) : ∃ e ∈ t.exc.entries, n ≤ e.number ∧ e.kind = c ∧ e.lane = L ∧ e.visit = N ∧ e.pos = P ∧
      e.detail = d ∧ e.response = r := by
  obtain ⟨e, he, hn, hx⟩ := h
  simp only [story, Prod.mk.injEq] at hx
  exact ⟨e, he, hn, hx⟩

/-- A kind's response follows its settings. -/
def SetByResponse (w : Settings) (c : ExcKind) : Prop :=
  w.responseOf c .inspect = if w.response c = .retry ∧ w.limit c = 0 then .hold else w.response c

section Response
variable {z : Settings} {c : ExcKind} (hz : SetByResponse z c)
include hz

theorem responseOf_retry_iff : z.responseOf c .inspect = .retry ↔ z.response c = .retry ∧ z.limit c ≠ 0 := by
  rw [hz]
  split
  · next h => simp [h]
  · next h => exact ⟨fun k => ⟨k, fun e => h ⟨k, e⟩⟩, And.left⟩

theorem responseOf_note (h : z.response c = .note) : z.responseOf c .inspect = .note := by
  rw [hz, h]
  rfl

theorem responseOf_hold (h : z.response c = .hold ∨ z.response c = .retry ∧ z.limit c = 0) :
    z.responseOf c .inspect = .hold := by
  rw [hz]
  rcases h with h | h
  · rw [h]; rfl
  · rw [if_pos h]
end Response

end Sys2Proof.Machine.ReadLaws
end

section
/-! SUPPORT. O44: the expiry of the survey wait (R110, R111). -/

namespace Sys2Proof.Machine.ReadLaws

open Sys2Proof.Machine.VisitLaws

variable {s t u : State} {l : LaneNo} {v w : Visit} {j k n : Nat} {q : Pos} {m : Move}

/-! ### One position's expiry -/

theorem expireSurvey_untouched (hv : s.visit l = some v)
    (h : (v.pos q).sealPart.move = none ∨ (v.pos q).damage.phase ≠ .opened) : s.expireSurvey l q = s := by
  simp only [State.expireSurvey, posRec_eq hv]
  exact if_pos (h.symm.imp_right fun e => by rw [e]; rfl)

theorem expireSurvey_open (hv : s.visit l = some v) (hm : (v.pos q).sealPart.move ≠ none)
    (ho : (v.pos q).damage.phase = .opened) : s.expireSurvey l q =
      if (v.pos q).damage.graded.isSome ∨ (v.pos q).damage.held.isSome then
        s.modPos l q fun x => x.modDamage fun y => { y with phase := .closed }
      else s.endSurveyWait l q := by
  simp only [State.expireSurvey, posRec_eq hv]
  exact if_neg (by simp [ho, hm])

/-- The exception of a missing survey is all that the Exception Table sees. -/
theorem endSurveyWait_exc (s : State) (l : LaneNo) (q : Pos) : (s.endSurveyWait l q).exc = s.exc ∨
    (s.endSurveyWait l q).exc = (s.raiseVisit .surveyMissing l (some q) 0).1.exc := by
  simp only [State.endSurveyWait]
  split
  · exact .inl rfl
  · right
    split
    · exact queueNotice_exc ..
    · rfl
    · rfl

theorem Full.expireSurvey (h : Full s.exc) (l : LaneNo) (q : Pos) : Full (s.expireSurvey l q).exc := by
  simp only [State.expireSurvey]
  split
  · exact h
  · split
    · exact h
    · rcases endSurveyWait_exc s l q with e | e <;> rw [e]
      · exact h
      · exact h.raiseVisit ..

theorem Told.expireSurvey (h : Told n s t) (l : LaneNo) (q : Pos) : Told (n + 3) s (t.expireSurvey l q) := by
  have h0 : Told (n + 3) s t := h.mono (by omega)
  have h1 := h.raiseVisit .surveyMissing l (some q) 0
  simp only [State.expireSurvey, State.endSurveyWait]
  generalize t.raiseVisit .surveyMissing l (some q) 0 = r at h1
  have h3 := h1.mono (show n + 2 ≤ n + 3 by omega)
  split
  · exact h0
  · split
    · exact h0.same rfl
    · split
      · exact h0.same rfl
      · split
        · exact Told.queueNotice (h1.same (by rfl)) _
        · exact h3.same rfl
        · exact h3.same rfl

/-! ### The turn of a position -/

section SurveyTurn
variable (T : Turn l q j s v u w (u.expireSurvey l q) t)
include T

theorem Turn.damage_untouched (h : (v.pos q).sealPart.move = none ∨ (v.pos q).damage.phase ≠ .opened) :
    Ends PosRec.damage l q (v.pos q).damage t := by
  have hx := expireSurvey_untouched (s := u) (q := q) T.visit (by rwa [T.sealPart, T.damage])
  exact T.ends (by rw [hx]; exact .of_visit T.visit T.damage) fun _ _ => rfl

variable (hm : (v.pos q).sealPart.move ≠ none) (ho : (v.pos q).damage.phase = .opened)
include hm ho

theorem Turn.damage_surveyed (h : (v.pos q).damage.graded ≠ none ∨ (v.pos q).damage.held ≠ none) :
    Ends PosRec.damage l q { (v.pos q).damage with phase := .closed } t := by
  have hx := expireSurvey_open (s := u) T.visit (by rwa [T.sealPart]) (by rwa [T.damage])
  rw [T.damage, if_pos (by simpa only [Option.isSome_iff_ne_none] using h)] at hx
  refine T.ends ?_ fun _ _ => rfl
  rw [hx, ← T.damage]
  exact .modPos (.of_visit T.visit rfl)

variable (hg : (v.pos q).damage.graded = none) (hh : (v.pos q).damage.held = none)
include hg hh

theorem Turn.survey_missing : u.expireSurvey l q = u.endSurveyWait l q := by
  have hx := expireSurvey_open (s := u) T.visit (by rwa [T.sealPart]) (by rwa [T.damage])
  rwa [T.damage, if_neg (by simp [hg, hh])] at hx

/-- What follows the raise of SURVEY_MISSING keeps all but the part. -/
theorem Turn.survey_after (hmark : (v.pos q).damage.missingMark = false) :
    Keeps (fun _ _ => ()) 0 l (u.raiseVisit .surveyMissing l (some q) 0).1 (u.expireSurvey l q) := by
  rw [T.survey_missing hm ho hg hh]
  exact endSurveyWait_after ⟨fun _ _ => rfl, fun _ _ => rfl⟩ (by rw [posRec_eq T.visit, T.damage, hmark])

theorem Turn.damage_unsurveyed (h : (v.pos q).damage.missingMark = true ∨
    s.store.work.responseOf .surveyMissing .inspect ≠ .retry ∨ u.exc.room = none ∨
      ReadLaws.overridden v .surveyMissing (some q) = true) :
    Ends damageEnd l q (true, .closed, .unsurveyed, s.store.work.surveyMissingInspect) t := by
  rw [← T.before.store]
  refine T.ends ?_ fun _ _ => rfl
  rw [T.survey_missing hm ho hg hh]
  refine endSurveyWait_unsurveyed T.visit (h.imp (fun h => by rw [T.damage, h]) fun h hr => ?_)
  obtain ⟨hs, hover, hroom⟩ := T.openRetry hr
  rcases h with h | h | h
  · exact h hs
  · exact hroom h
  · rw [hover] at h; cases h

theorem Turn.damage_extended (hmark : (v.pos q).damage.missingMark = false)
    (hs : s.store.work.responseOf .surveyMissing .inspect = .retry)
    (hover : ReadLaws.overridden v .surveyMissing (some q) = false)
    (hr : Room (j + 7) s.exc) : Ends damageEnd l q
      (true, .extended, (v.pos q).damage.outcome, (v.pos q).damage.effectInspect) t := by
  refine T.ends ?_ fun _ _ => rfl
  rw [T.survey_missing hm ho hg hh, ← T.damage]
  exact endSurveyWait_extended T.visit (by rw [T.damage, hmark]) (T.retries hr hs hover)

/-- The mark of SURVEY_MISSING is set, whatever the raise came to. -/
theorem Turn.survey_mark : Ends (fun r => r.damage.missingMark) l q true t := by
  refine T.ends ?_ fun _ _ => rfl
  rw [T.survey_missing hm ho hg hh]
  have key : ∀ {a}, Ends damageEnd l q (true, a) (u.endSurveyWait l q) →
      Ends (fun r => r.damage.missingMark) l q true (u.endSurveyWait l q) := fun {a} h => by
    obtain ⟨y, hy, he⟩ := Option.map_eq_some_iff.mp h
    exact .of_visit hy (congrArg Prod.fst he)
  by_cases h : (w.pos q).damage.missingMark = true ∨ (u.raiseVisit .surveyMissing l (some q) 0).2 ≠ .openRetry
  · exact key (endSurveyWait_unsurveyed T.visit h)
  · obtain ⟨h1, h2⟩ := not_or.mp h
    exact key (endSurveyWait_extended T.visit (Bool.eq_false_iff.mpr h1) (not_not.mp h2))

theorem Turn.survey_rereads (hmark : (v.pos q).damage.missingMark = false)
    (hs : s.store.work.responseOf .surveyMissing .inspect = .retry)
    (hover : ReadLaws.overridden v .surveyMissing (some q) = false)
    (hr : Room (j + 7) s.exc) (hmv : ((v.pos q).sealPart.move.bind fun m => moveAt (s.claimedMoves l) m.1) = some m)
    (hmask : s.store.work.mask .reread = true) (hn : u.link.noticeCount < 30) :
    .notice (rereadOf 2 l v.number q (textField (m.cid.getD []))) ∈ t.link.outbox := by
  rw [← T.kept.number]
  apply T.after.outbox
  rw [T.survey_missing hm ho hg hh]
  exact endSurveyWait_rereads T.visit (T.moveOf.trans hmv) (by rw [T.damage, hmark]) (T.retries hr hs hover)
    (by rw [T.before.store, hmask]) hn
end SurveyTurn

end Sys2Proof.Machine.ReadLaws
end

section
/-! SUPPORT. O44: the expiry of the seal wait at one position (R94, R95). -/

namespace Sys2Proof.Machine.ReadLaws

open Sys2Proof.Machine.VisitLaws

variable {s t u : State} {l : LaneNo} {v w : Visit} {j k n : Nat} {q : Pos} {m : Move}

/-- A part still without a declared seal, and with no other seal seen (R95). -/
def LacksSeals (m : Move) (z : SealPart) : Prop :=
  m.kind = .deliverFull ∧ z.outcome = .pending ∧ missingSeals m.seals z.seen ≠ [] ∧ extraSeals m.seals z.seen = []

theorem extraSeals_eq_nil_iff (declared : List Text) (seen : List SeenSeal) :
    extraSeals declared seen = [] ↔ ∀ y ∈ seen, y.text ∈ declared := by
  simp [extraSeals, List.filter_eq_nil_iff]

theorem expireSeal_untouched (hv : s.visit l = some v) (h : (v.pos q).sealPart.phase ≠ .opened) : s.expireSeal l q = s := by
  simp only [State.expireSeal, posRec_eq hv]
  exact if_pos h

open Classical in
theorem expireSeal_open (hv : s.visit l = some v) (ho : (v.pos q).sealPart.phase = .opened) (hm : s.moveOf l q = some m) :
    s.expireSeal l q = if LacksSeals m (v.pos q).sealPart then
      s.endSealWait l q (missingSeals m.seals (v.pos q).sealPart.seen).length else s.closeSeal l q := by
  simp only [State.expireSeal, posRec_eq hv, hm, ho, ne_eq, not_true_eq_false, if_false]
  exact if_congr Iff.rfl rfl rfl

theorem Told.evaluate (h : Told n s t) (l : LaneNo) (c : CheckName) : Told n s (t.evaluate l c) := h.same rfl

theorem Told.raiseSeal (h : Told n s t) (l : LaneNo) (q : Pos) (o : SealOutcome) (e : Nat) :
    Told (n + 2) s (t.raiseSeal l q o e) := by
  have h0 : Told (n + 2) s t := h.mono (by omega)
  have h1 := fun c => h.raiseVisit c l (some q) e
  unfold State.raiseSeal
  cases o
  case mismatch => exact .ite h0 ((h1 _).same rfl)
  case unexpected => exact .ite h0 ((h1 _).same rfl)
  all_goals exact h0

theorem Told.closeSeal (h : Told n s t) (l : LaneNo) (q : Pos) : Told (n + 2) s (t.closeSeal l q) := by
  have h0 : Told (n + 2) s t := h.mono (by omega)
  simp only [State.closeSeal]
  split
  · exact .ite (h0.same rfl) (.evaluate (.ite (.raiseSeal (h.same (by rfl)) _ _ _ _) (h0.same (by rfl))) _ _)
  · exact h0.same rfl

theorem Told.endSealWait (h : Told n s t) (l : LaneNo) (q : Pos) (e : Nat) : Told (n + 3) s (t.endSealWait l q e) := by
  have h1 := h.raiseVisit .sealMissing l (some q) e
  simp only [State.endSealWait]
  generalize t.raiseVisit .sealMissing l (some q) e = r at h1
  have h3 := h1.mono (show n + 2 ≤ n + 3 by omega)
  split
  · exact (h.mono (by omega)).same rfl
  · split
    · unfold State.rereadSeal
      split
      · exact Told.queueNotice (h1.same (by rfl)) _
      · exact h3.same rfl
    · exact h3.same rfl
    · exact h3.same rfl

theorem Told.expireSeal (h : Told n s t) (l : LaneNo) (q : Pos) : Told (n + 3) s (t.expireSeal l q) := by
  have h0 : Told (n + 3) s t := h.mono (by omega)
  simp only [State.expireSeal]
  split
  · exact h0
  · split
    · exact h0
    · exact .ite (h.endSealWait l q _) ((h.closeSeal l q).mono (by omega))

/-! ### The turn of a position -/

section SealTurn
variable (T : Turn l q j s v u w (u.expireSeal l q) t)
include T

theorem Turn.seal_untouched (h : (v.pos q).sealPart.phase ≠ .opened) : Ends sealEnd l q (sealEnd (v.pos q)) t := by
  refine T.ends ?_ fun _ _ => rfl
  rw [expireSeal_untouched T.visit (by rwa [T.sealPart])]
  exact .of_visit T.visit (by rw [sealEnd, sealEnd, T.sealPart])

variable (ho : (v.pos q).sealPart.phase = .opened)
  (hm : ((v.pos q).sealPart.move.bind fun m => moveAt (s.claimedMoves l) m.1) = some m)
include ho hm

theorem Turn.seal_closed (h : ¬LacksSeals m (v.pos q).sealPart) :
    Ends sealEnd l q (.closed, closedOutcome m (v.pos q).sealPart) t := by
  refine T.ends ?_ fun _ _ => rfl
  rw [expireSeal_open T.visit (by rwa [T.sealPart]) (T.moveOf.trans hm), T.sealPart, if_neg h, ← T.sealPart]
  exact closeSeal_ends T.visit (T.moveOf.trans hm) (by rwa [T.sealPart])

variable (hl : LacksSeals m (v.pos q).sealPart)
include hl

theorem Turn.seal_lacking :
    u.expireSeal l q = u.endSealWait l q (missingSeals m.seals (v.pos q).sealPart.seen).length := by
  rw [expireSeal_open T.visit (by rwa [T.sealPart]) (T.moveOf.trans hm), T.sealPart, if_pos hl]

/-- What follows the raise of SEAL_MISSING keeps all but the part. -/
theorem Turn.seal_after (hmark : (v.pos q).sealPart.missingMark = false) : Keeps (fun _ _ => ()) 0 l
    (u.raiseVisit .sealMissing l (some q) (missingSeals m.seals (v.pos q).sealPart.seen).length).1 (u.expireSeal l q) := by
  rw [T.seal_lacking ho hm hl]
  exact endSealWait_after ⟨fun _ _ => rfl, fun _ _ => rfl⟩ (by rw [posRec_eq T.visit, T.sealPart, hmark]) _

theorem Turn.seal_missing (h : (v.pos q).sealPart.missingMark = true ∨
    s.store.work.responseOf .sealMissing .inspect ≠ .retry) : Ends sealEnd l q (.closed, .missing) t := by
  refine T.ends ?_ fun _ _ => rfl
  rw [T.seal_lacking ho hm hl]
  refine endSealWait_missing (x := sealEnd (w.pos q)) (.of_visit T.visit rfl)
    (h.imp (fun h => by rw [posRec_eq T.visit, T.sealPart, h]) fun h hr => h (T.openRetry hr).1)

/-- A part without a declared seal is MISSING or EXTENDED. -/
theorem Turn.seal_lacking_ends : Ends sealEnd l q (.closed, .missing) t ∨
    Ends sealEnd l q (.extended, (v.pos q).sealPart.outcome) t := by
  by_cases h : (u.posRec l q).sealPart.missingMark = true ∨ (u.raiseVisit .sealMissing l (some q)
      (missingSeals m.seals (v.pos q).sealPart.seen).length).2 ≠ .openRetry
  · refine .inl (T.ends ?_ fun _ _ => rfl)
    rw [T.seal_lacking ho hm hl]
    exact endSealWait_missing (x := sealEnd (w.pos q)) (.of_visit T.visit rfl) h
  · obtain ⟨h1, h2⟩ := not_or.mp h
    rw [posRec_eq T.visit] at h1
    refine .inr (T.ends ?_ fun _ _ => rfl)
    rw [T.seal_lacking ho hm hl, ← T.sealPart]
    rw [← T.sealPart] at h2
    exact endSealWait_extended T.visit (Bool.eq_false_iff.mpr h1) (not_not.mp h2)

variable (hmark : (v.pos q).sealPart.missingMark = false) (hs : s.store.work.responseOf .sealMissing .inspect = .retry)
  (hover : ReadLaws.overridden v .sealMissing (some q) = false) (hr : Room (j + 7) s.exc)
include hmark hs hover hr

theorem Turn.seal_extended : Ends sealEnd l q (.extended, (v.pos q).sealPart.outcome) t := by
  refine T.ends ?_ fun _ _ => rfl
  rw [T.seal_lacking ho hm hl, ← T.sealPart]
  exact endSealWait_extended T.visit (by rw [T.sealPart, hmark]) (T.retries hr hs hover)

theorem Turn.seal_rereads (hmask : s.store.work.mask .reread = true) (hn : u.link.noticeCount < 30) :
    .notice (rereadOf 1 l v.number q (textField (m.cid.getD []) ++
      listField textField (missingSeals m.seals (v.pos q).sealPart.seen))) ∈ t.link.outbox := by
  rw [← T.kept.number]
  apply T.after.outbox
  rw [T.seal_lacking ho hm hl, ← T.sealPart]
  exact endSealWait_rereads T.visit (T.moveOf.trans hm) (by rw [T.sealPart, hmark])
    (T.retries hr hs hover) (by rw [T.before.store, hmask]) hn
end SealTurn

end Sys2Proof.Machine.ReadLaws
end

section
/-! SUPPORT. O44: the missing boxes marked unreadable and the moves found before the seal parts are looked at (R76, R89, R94). -/

namespace Sys2Proof.Machine.ReadLaws

open Sys2Proof.Machine.VisitLaws

variable {s t u : State} {l : LaneNo} {v w : Visit} {j k n : Nat} {p q : Pos} {m : Move}

/-! ### The moves of the two positions (R89) -/

/-- The move R89 finds for a position. -/
def seat (ms : List Move) (v : Visit) : Pos → Option (Nat × Basis)
  | .front => (seatMoves ms v.front v.rear).1
  | .rear => (seatMoves ms v.front v.rear).2

/-- Where a position's ID stands alike, so does its move. -/
theorem seat_congr (ms : List Move) (h : ∀ p, (w.pos p).cid = (v.pos p).cid ∧ (w.pos p).spanning = (v.pos p).spanning) :
    seat ms w = seat ms v := by
  obtain ⟨hf, -⟩ := h .front
  obtain ⟨hr, hs⟩ := h .rear
  simp only [Visit.pos] at hf hr hs
  funext p
  cases p
  · rw [seat, seat, seatMoves_front, seatMoves_front, hf, hr]
  · rw [seat, seat, seatMoves_rear, seatMoves_rear, hf, hr, hs]

theorem moveAt_of_placed {ms : List Move} {x : Nat × Move} (h : x ∈ placedMoves ms) : moveAt ms x.1 = some x.2 := by
  obtain ⟨y, hy, rfl⟩ := List.mem_map.mp h
  rw [moveAt, if_neg (Nat.succ_ne_zero _)]
  exact List.mem_zipIdx_iff_getElem?.mp (List.mem_filter.mp hy).1

theorem moveAt_of_named {ms : List Move} {x : Text} {n : Nat} {b : Basis} (h : namedMove ms x = some (n, b)) :
    moveAt ms n ≠ none := by
  obtain ⟨y, hy, he⟩ := Option.map_eq_some_iff.mp h
  cases he
  rw [moveAt_of_placed (List.mem_of_find?_eq_some hy)]
  exact Option.some_ne_none _

theorem moveAt_of_expected {ms : List Move} {f g : Option Text} {n : Nat} {b : Basis} (h : (n, b) ∈ expectedMoves ms f g) :
    moveAt ms n ≠ none := by
  obtain ⟨y, hy, he⟩ := List.mem_map.mp h
  cases he
  rw [moveAt_of_placed (List.mem_filter.mp hy).1]
  exact Option.some_ne_none _

/-- A move that is found is a move of the booking. -/
theorem moveAt_of_seat {ms : List Move} {b : Basis} (h : seat ms v q = some (n, b)) : moveAt ms n ≠ none := by
  cases q
  · rw [seat, seatMoves_front] at h
    split at h
    · exact moveAt_of_named h
    · exact moveAt_of_expected (List.mem_of_head? h)
  · rw [seat, seatMoves_rear] at h
    split at h
    · split at h
      · cases h
      · exact moveAt_of_named h
    · split at h
      · exact moveAt_of_expected (List.mem_of_mem_tail (List.mem_of_head? h))
      · exact moveAt_of_expected (List.mem_of_head? h)

/-! ### The missing boxes (R76) -/

/-- R76 gives the position a box that is only expected. -/
def expects (ms : List Move) (v : Visit) (p : Pos) : Bool := (seat ms v p).any fun x => x.2 == .expected

/-- The work on the missing boxes at one position. -/
def markMissing (ms : List Move) (v : Visit) (l : LaneNo) (u : State) (p : Pos) : State :=
  if expects ms v p then u.raiseUnreadable l p 0 else u

theorem missingBoxes_eq (hv : s.visit l = some v) :
    s.missingBoxes l = bothPos.foldl (markMissing (s.claimedMoves l) v l) s := by
  rw [State.missingBoxes, hv]
  rfl

theorem markMissing_keeps {α : Type} {φ : Pos → PosRec → α} (hφ : UnreadableBlind φ p) (ms : List Move) (v : Visit) (u : State) :
    Keeps φ 1 l u (markMissing ms v l u p) :=
  .ite (.raiseUnreadable hφ (.refl ..) _) ((Keeps.refl ..).mono (Nat.zero_le 1))

theorem keepAt_unreadableBlind (h : p ≠ q) : UnreadableBlind (keepAt q) p :=
  fun _ => ⟨keepAt_other h _ _, keepAt_other h _ _⟩

/-- A position marked unreadable. -/
def flagged (r : PosRec) (b : Bool) : PosRec := if b then { r with made := true, unreadable := true } else r

/-- What follows the raise of ID_UNREADABLE. -/
theorem raiseUnreadable_after (hv : u.visit l = some w) (hm : (w.pos q).unreadable = false) (d : Nat) :
    Keeps (fun _ _ => ()) 0 l ((u.makePos l q).raiseVisit .idUnreadable l (some q) d).1 (u.raiseUnreadable l q d) := by
  have h := ((Keeps.refl (fun _ _ => ()) l ((u.makePos l q).raiseVisit .idUnreadable l (some q) d).1).modPos (p := q)
    (f := fun r => { r with unreadable := true }) fun _ => rfl).evaluate (idCheck q)
  rw [State.raiseUnreadable, posRec_eq hv, if_neg (by rw [hm]; exact Bool.false_ne_true)]
  exact h

theorem raiseUnreadable_ends (hv : u.visit l = some w) (d : Nat) :
    Ends id l q { w.pos q with made := true, unreadable := true } (u.raiseUnreadable l q d) := by
  have h0 : Ends id l q { w.pos q with made := true } (u.makePos l q) := .modPos (.of_visit hv rfl)
  simp only [State.raiseUnreadable, posRec_eq hv]
  split
  · next hm =>
    have he : ({ w.pos q with made := true, unreadable := true } : PosRec) = { w.pos q with made := true } := by rw [← hm]
    rwa [he]
  · refine Ends.keeps (.modPos ?_) ((Keeps.refl ..).evaluate _)
    have h1 : Ends (fun r => { r with unreadable := true }) l q { w.pos q with made := true, unreadable := true }
        (u.makePos l q) := .modPos (.of_visit hv rfl)
    exact h1.keeps ((Keeps.refl ..).raiseVisit _ _ _)

theorem markMissing_ends (ms : List Move) (v : Visit) (hv : u.visit l = some w) :
    Ends id l q (flagged (w.pos q) (expects ms v q)) (markMissing ms v l u q) := by
  unfold markMissing flagged
  split
  · exact raiseUnreadable_ends hv 0
  · exact .of_visit hv rfl

end Sys2Proof.Machine.ReadLaws
end

section
/-! SUPPORT. O44: the lane's visit as the seal parts are looked at (R76, R89, R94). -/

namespace Sys2Proof.Machine.ReadLaws

open Sys2Proof.Machine.VisitLaws

variable {s t u : State} {l : LaneNo} {v w : Visit} {j k n : Nat} {p q : Pos} {m : Move} {α : Type} {φ : Pos → PosRec → α}

theorem findMoves_pos (hv : s.visit l = some v) : ∃ w, (s.findMoves l).visit l = some w ∧
    ∀ p, w.pos p = reseat (seat (s.claimedMoves l) v p) (v.pos p) (v.pos p.other) := by
  let f := reseat (seat (s.claimedMoves l) v .front) v.front v.rear
  let r := reseat (seat (s.claimedMoves l) v .rear) v.rear v.front
  have hs : (s.modVisit l fun y => { y with front := f, rear := r }).visit l = some { v with front := f, rear := r } := by
    rw [State.modVisit_visit, hv]; rfl
  have hon : ∀ (b : Bool) (c : CheckName) {y z : State}, Keeps (fun _ r => r) 0 l y z →
      Keeps (fun _ r => r) 0 l y (if b then z.evaluate l c else z) := fun _ c _ _ h => .ite (h.evaluate c) h
  have hk : Keeps (fun _ r => r) 0 l (s.modVisit l fun y => { y with front := f, rear := r }) (s.findMoves l) := by
    rw [State.findMoves, hv]
    exact hon _ _ (hon _ _ (hon _ _ (hon _ _ (.refl ..))))
  obtain ⟨w, hw, hvw⟩ := hk.lane.visit _ hs
  exact ⟨w, hw, fun p => by cases p; exacts [hvw.pos .front, hvw.pos .rear]⟩

theorem Told.findMoves (h : Told n s t) (l : LaneNo) : Told n s (t.findMoves l) := by
  have hon : ∀ (b : Bool) (c : CheckName) {y : State}, Told n s y → Told n s (if b then y.evaluate l c else y) :=
    fun _ c _ h => .ite (h.evaluate l c) h
  unfold State.findMoves
  split
  · exact h
  · exact hon _ _ (hon _ _ (hon _ _ (hon _ _ (h.same (by rfl)))))

theorem Told.markMissing (h : Told n s t) (ms : List Move) (v : Visit) (l : LaneNo) (p : Pos) :
    Told (n + 2) s (markMissing ms v l t p) := by
  have h0 : Told (n + 2) s t := h.mono (by omega)
  refine .ite (.ite (h0.same rfl) (.evaluate ?_ _ _)) h0
  exact Told.same (Told.raiseVisit (h.same (u := t.makePos l p) rfl) .idUnreadable l (some p) 0) (by rfl)

theorem reseat_unreadable (x : Option (Nat × Basis)) (a b : PosRec) : (reseat x a b).unreadable = a.unreadable := by
  cases x <;> rfl

theorem reseat_seal_congr (x : Option (Nat × Basis)) {a b c d : PosRec} (h : a.sealPart = c.sealPart)
    (k : b.sealPart = d.sealPart) : (reseat x a b).sealPart = (reseat x c d).sealPart := by
  cases x
  · rfl
  · simp only [reseat, h, k]

/-! ### Up to the moves found -/

/-- The state with the seal wait over. -/
def sealOver (s : State) (l : LaneNo) : State := s.modVisit l fun v => { v with sealWait := none }

theorem sealOver_keeps (φ : Pos → PosRec → α) (s : State) (l : LaneNo) : Keeps φ 0 l s (sealOver s l) :=
  (Keeps.refl φ l s).modVisit fun _ => .of_parts rfl rfl (fun _ => rfl) rfl rfl (.inl rfl) (.inr rfl)

/-- The state in which the seal parts are looked at. -/
def sealReady (s : State) (l : LaneNo) : State := ((sealOver s l).missingBoxes l).findMoves l

section Ready
variable (hv : s.visit l = some v)
include hv

theorem sealOver_visit : (sealOver s l).visit l = some { v with sealWait := none } := by
  rw [sealOver, State.modVisit_visit, hv]
  rfl

theorem sealOver_missing : (sealOver s l).missingBoxes l =
    bothPos.foldl (markMissing (s.claimedMoves l) v l) (sealOver s l) := by
  rw [missingBoxes_eq (sealOver_visit hv), (sealOver_keeps (fun _ _ => ()) s l).claimedMoves hv]
  rfl

theorem missing_keeps : Keeps (fun _ _ => ()) 2 l (sealOver s l) ((sealOver s l).missingBoxes l) := by
  rw [sealOver_missing hv]
  exact both_keep (fun _ u => markMissing_keeps (fun _ => ⟨rfl, rfl⟩) _ _ u) _

theorem sealReady_keeps : Keeps (fun _ _ => ()) 2 l s (sealReady s l) :=
  ((sealOver_keeps _ s l).trans (missing_keeps hv)).findMoves fun _ _ _ _ => rfl

theorem sealReady_told : Told 4 s (sealReady s l) := by
  have h0 : Told 0 s (sealOver s l) := (Told.refl s).same rfl
  refine Told.findMoves ?_ l
  rw [sealOver_missing hv]
  exact (h0.markMissing _ v l .front).markMissing _ v l .rear

/-- A position once the missing boxes are marked: the mark alone is new. -/
theorem missing_pos (q : Pos) : ∃ w, ((sealOver s l).missingBoxes l).visit l = some w ∧
    (w.pos q).sealPart = (v.pos q).sealPart ∧
    ((w.pos q).cid = (v.pos q).cid ∧ (w.pos q).spanning = (v.pos q).spanning) ∧
    (w.pos q).unreadable = ((v.pos q).unreadable || expects (s.claimedMoves l) v q) := by
  obtain ⟨hb, ha⟩ := both_around (φ := keepAt q) (f := markMissing (s.claimedMoves l) v l) q
    (fun p hp u => markMissing_keeps (keepAt_unreadableBlind hp) _ _ u) (sealOver s l)
  obtain ⟨y, hy, hk⟩ := hb.lane.visit _ (sealOver_visit hv)
  obtain ⟨z, hz, he⟩ := Option.map_eq_some_iff.mp (markMissing_ends (q := q) (s.claimedMoves l) v hy)
  obtain ⟨w, hw, hzw⟩ := ha.lane.visit z hz
  have hvq : ({ v with sealWait := none } : Visit).pos q = v.pos q := by cases q <;> rfl
  refine ⟨w, by rw [sealOver_missing hv]; exact hw, ?_⟩
  rw [hzw.record, show z.pos q = _ from he, hk.record, hvq, flagged]
  cases expects (s.claimedMoves l) v q
  · exact ⟨rfl, ⟨rfl, rfl⟩, (Bool.or_false _).symm⟩
  · exact ⟨rfl, ⟨rfl, rfl⟩, (Bool.or_true _).symm⟩

/-- The visit once the moves are found. -/
theorem sealReady_pos : ∃ w, (sealReady s l).visit l = some w ∧ ∀ p,
    (w.pos p).sealPart = (reseat (seat (s.claimedMoves l) v p) (v.pos p) (v.pos p.other)).sealPart ∧
    (w.pos p).unreadable = ((v.pos p).unreadable || expects (s.claimedMoves l) v p) := by
  obtain ⟨y, hy, -⟩ := missing_pos hv .front
  have hpos : ∀ p, (y.pos p).sealPart = (v.pos p).sealPart ∧
      ((y.pos p).cid = (v.pos p).cid ∧ (y.pos p).spanning = (v.pos p).spanning) ∧
      (y.pos p).unreadable = ((v.pos p).unreadable || expects (s.claimedMoves l) v p) := fun p => by
    obtain ⟨z, hz, h⟩ := missing_pos hv p
    rwa [Option.some.inj (hy.symm.trans hz)]
  have hms : ((sealOver s l).missingBoxes l).claimedMoves l = s.claimedMoves l :=
    ((sealOver_keeps (fun _ _ => ()) s l).trans (missing_keeps hv)).claimedMoves hv
  obtain ⟨w, hw, hwp⟩ := findMoves_pos hy
  refine ⟨w, hw, fun p => ?_⟩
  obtain ⟨hseal, -, hun⟩ := hpos p
  rw [hwp p, hms, seat_congr _ fun p => (hpos p).2.1]
  exact ⟨reseat_seal_congr _ hseal (hpos p.other).1, (reseat_unreadable ..).trans hun⟩

/-- ID_UNREADABLE is told of a missing box with room (R76). -/
theorem sealReady_tells (he : expects (s.claimedMoves l) v q = true) (hu : (v.pos q).unreadable = false)
    (hr : Room 3 s.exc) (hs : s.store.work.responseOf .idUnreadable .inspect ≠ .silent) :
    Tells s.exc.next (.idUnreadable, some l, some v.number, some q, 0, s.store.work.responseOf .idUnreadable .inspect)
      (sealReady s l) := by
  obtain ⟨hb, -⟩ := both_around (φ := keepAt q) (f := markMissing (s.claimedMoves l) v l) q
    (fun p hp u => markMissing_keeps (keepAt_unreadableBlind hp) _ _ u) (sealOver s l)
  have hb' := (sealOver_keeps (keepAt q) s l).trans hb
  obtain ⟨y, hy, hk⟩ := hb'.lane.visit v hv
  have ha : Keeps (fun _ _ => ()) 1 l (markMissing (s.claimedMoves l) v l (beforeAt (markMissing (s.claimedMoves l) v l)
      (sealOver s l) q) q) (sealReady s l) := by
    refine Keeps.findMoves ?_ fun _ _ _ _ => rfl
    rw [sealOver_missing hv]
    exact (both_around q (fun p _ u => markMissing_keeps (fun _ => ⟨rfl, rfl⟩) _ _ u) _).2
  generalize beforeAt (markMissing (s.claimedMoves l) v l) (sealOver s l) q = x at hb' hy ha
  rw [markMissing, if_pos he] at ha
  have hrx : Room 2 x.exc := hb'.roomy hr
  have hmade : Keeps (fun _ _ => ()) 0 l x (x.makePos l q) := (Keeps.refl ..).modPos fun _ => rfl
  obtain ⟨z, hz, hyz⟩ := hmade.lane.visit y hy
  have hnum : z.number = v.number := hyz.number.trans hk.number
  have h := raiseVisit_tells (c := .idUnreadable) (p := some q) (d := 0) hz
    (by rw [show (x.makePos l q).store = s.store from hb'.store]; exact hs) (hrx.mono (by omega))
  rw [hnum, show (x.makePos l q).store = s.store from hb'.store] at h
  have hr1 : Room 1 ((x.makePos l q).raiseVisit .idUnreadable l (some q) 0).1.exc :=
    ((Keeps.refl (fun _ _ => ()) l (x.makePos l q)).raiseVisit .idUnreadable (some q) 0).roomy hrx
  have hafter := raiseUnreadable_after hy (by rw [hk.record]; exact hu) 0
  exact ((hafter.trans ha).tells hr1 h).from hb'.exc.next
end Ready

end Sys2Proof.Machine.ReadLaws
end

section
/-! SUPPORT. O44: the two expiries as a whole. -/

namespace Sys2Proof.Machine.ReadLaws

open Sys2Proof.Machine.VisitLaws

variable {s t u x : State} {l : LaneNo} {v w : Visit} {j k n : Nat} {q : Pos} {m : Move} {α : Type} {φ : Pos → PosRec → α}

/-! ### The expiry of a wait -/

theorem sealWaitExpiry_stopped (hp : s.power = true) (h : ∀ v, s.visit l = some v → v.sealWait = none) :
    exec (.sealWaitExpiry l) s = .next s := by
  refine (event_powered hp _).trans (congrArg (fun x => (.next x : Out)) (if_neg ?_))
  cases hv : s.visit l with
  | none => rw [State.running, hv]; exact Bool.false_ne_true
  | some v => rw [running_eq hv, h v hv]; exact Bool.false_ne_true

theorem surveyWaitExpiry_stopped (hp : s.power = true) (h : ∀ v, s.visit l = some v → v.surveyWait = none) :
    exec (.surveyWaitExpiry l) s = .next s := by
  refine (event_powered hp _).trans (congrArg (fun x => (.next x : Out)) (if_neg ?_))
  cases hv : s.visit l with
  | none => rw [State.running, hv]; exact Bool.false_ne_true
  | some v => rw [running_eq hv, h v hv]; exact Bool.false_ne_true

theorem sealWaitExpiry_runs (hp : s.power = true) (hv : s.visit l = some v) (h : v.sealWait ≠ none) :
    exec (.sealWaitExpiry l) s = .next (s.sealWaitEnds l) :=
  (event_powered hp _).trans (congrArg (fun x => (.next x : Out)) (if_pos (by
    rw [running_eq hv]; exact Option.isSome_iff_ne_none.mpr h)))

theorem surveyWaitExpiry_runs (hp : s.power = true) (hv : s.visit l = some v) (h : v.surveyWait ≠ none) :
    exec (.surveyWaitExpiry l) s = .next (s.surveyWaitEnds l) :=
  (event_powered hp _).trans (congrArg (fun x => (.next x : Out)) (if_pos (by
    rw [running_eq hv]; exact Option.isSome_iff_ne_none.mpr h)))

/-- The check's override, as the statement writes it. -/
theorem overridden_eq_false {c : ExcKind} {b : CheckName} (hc : checkOf c (some q) = some b) :
    overridden v c (some q) = false ↔ (v.checks.get b).override = none := by
  rw [overridden, hc, Option.any_some, Option.isSome_eq_false_iff, Option.isNone_iff_eq_none]

theorem surveyCheck_of (q : Pos) :
    checkOf .surveyMissing (some q) = some (match q with | .front => .damageFront | .rear => .damageRear) := by
  cases q <;> rfl

theorem sealCheck_of (q : Pos) :
    checkOf .sealMissing (some q) = some (match q with | .front => .sealFront | .rear => .sealRear) := by
  cases q <;> rfl

/-! ### The survey wait (R110, R111) -/

/-- The state with the survey wait over. -/
def surveyOver (s : State) (l : LaneNo) : State := s.modVisit l fun v => { v with surveyWait := none }

theorem surveyOver_keeps (φ : Pos → PosRec → α) (s : State) (l : LaneNo) : Keeps φ 0 l s (surveyOver s l) :=
  (Keeps.refl φ l s).modVisit fun _ => .of_parts rfl rfl (fun _ => rfl) rfl rfl (.inr rfl) (.inl rfl)

theorem surveyWaitEnds_over (hv : s.visit l = some v) : ((s.surveyWaitEnds l).visit l).map Visit.surveyWait = some none ∧
    (s.surveyWaitEnds l).book = s.book := by
  have hs : (surveyOver s l).visit l = some { v with surveyWait := none } := by
    rw [surveyOver, State.modVisit_visit, hv]; rfl
  have hk : Keeps (fun _ _ => ()) (2 + 5) l (surveyOver s l) (s.surveyWaitEnds l) :=
    Keeps.settle (both_keep (f := fun t p => t.expireSurvey l p)
      (fun p u => expireSurvey_keeps ⟨fun _ _ => rfl, fun _ _ => rfl⟩ u) (surveyOver s l)) fun _ _ _ => rfl
  obtain ⟨w, hw, hk'⟩ := hk.lane.visit _ hs
  refine ⟨?_, hk.book⟩
  have hn : w.surveyWait = none := hk'.surveyWait.elim id id
  exact (congrArg _ hw).trans (congrArg some hn)

/-- The turn of a position at the expiry of the survey wait. -/
theorem surveyTurn (hv : s.visit l = some v) (q : Pos) : ∃ u w, Turn l q 1 s v u w (u.expireSurvey l q) (s.surveyWaitEnds l) ∧
    (Full s.exc → Full u.exc) ∧ Told 3 s u := by
  obtain ⟨w, T⟩ := turn_of_both (q := q) (f := fun t p => t.expireSurvey l p)
    (fun p hp u => expireSurvey_keeps (keepAt_partsBlind hp) u) hv (surveyOver_keeps (keepAt q) s l)
  refine ⟨_, w, T, ?_, ?_⟩
  · cases q
    · exact id
    · exact fun h => Full.expireSurvey (s := surveyOver s l) h l .front
  · have h0 : Told 0 s (surveyOver s l) := (Told.refl s).same rfl
    cases q
    · exact h0.mono (by omega)
    · exact h0.expireSurvey l .front

/-- A value that ends is told of as the statement tells it. -/
theorem Ends.after {β : Type} {f : PosRec → β} {a : β} (h : Ends f l q a t) {g : PosRec → Bool} (hg : ∀ r, f r = a → g r = true) :
    (t.visit l).map (fun w => g (w.pos q)) = some true := by
  obtain ⟨w, hw, he⟩ := Option.map_eq_some_iff.mp h
  rw [hw, Option.map_some, hg _ he]

/-! ### The seal wait (R94, R95) -/

theorem takeSeal_cases (n : Nat) (a b : SealPart) : takeSeal n a b = a ∨ takeSeal n a b = b ∨ takeSeal n a b = .fresh := by
  unfold takeSeal
  split
  · exact .inl rfl
  · split
    · exact .inr (.inl rfl)
    · split
      · exact .inr (.inr rfl)
      · exact .inl rfl

/-- A seal part once the moves are found is done with, or open with a move of the booking (R89). -/
theorem reseat_part (ms : List Move) (v : Visit) (p : Pos) :
    let z := (reseat (seat ms v p) (v.pos p) (v.pos p.other)).sealPart
    z.phase = .extended ∨ z.phase = .closed ∧ (z.outcome ≠ .pending ∨ (v.pos .front).sealPart.phase = .closed ∨
      (v.pos .rear).sealPart.phase = .closed) ∨
    z.phase = .opened ∧ ∃ m, (z.move.bind fun m => moveAt ms m.1) = some m := by
  cases hs : seat ms v p with
  | none => exact .inr (.inl ⟨rfl, .inl fun h => by cases h⟩)
  | some x =>
    obtain ⟨n, b⟩ := x
    dsimp only [reseat]
    cases hp : (takeSeal n (v.pos p).sealPart (v.pos p.other).sealPart).phase with
    | extended => exact .inl rfl
    | opened => exact .inr (.inr ⟨rfl, Option.ne_none_iff_exists'.mp (moveAt_of_seat hs)⟩)
    | closed =>
      refine .inr (.inl ⟨rfl, .inr ?_⟩)
      rcases takeSeal_cases n (v.pos p).sealPart (v.pos p.other).sealPart with h | h | h <;> rw [h] at hp
      · cases p
        · exact .inl hp
        · exact .inr hp
      · cases p
        · exact .inr hp
        · exact .inl hp
      · cases hp

/-- Where R89 finds the part's own move, the part stays. -/
theorem reseat_own {x : Nat × Basis} {a b : PosRec} (h : a.sealPart.move = some x) :
    (reseat (some x) a b).sealPart = a.sealPart := by
  obtain ⟨n, y⟩ := x
  have ht : takeSeal n a.sealPart b.sealPart = a.sealPart := if_pos (by simp [h])
  simp only [reseat, ht, ← h]

/-- A part that is closed with an outcome of R91 is no longer PENDING. -/
theorem closedOutcome_ne_pending (m : Move) (z : SealPart) : closedOutcome m z ≠ .pending := by
  unfold closedOutcome
  split
  · next h => rcases h with h | h <;> rw [h] <;> decide
  · simp only [sealOutcome, if_true]
    split
    · split
      · decide
      · split <;> decide
    · split <;> decide

theorem sealWaitEnds_keeps (hv : s.visit l = some v) : Keeps (fun _ _ => ()) 9 l (sealOver s l) (s.sealWaitEnds l) :=
  (((missing_keeps hv).findMoves fun _ _ _ _ => rfl).trans (both_keep (f := fun t p => t.expireSeal l p)
    (fun _ u => expireSeal_keeps ⟨fun _ _ => rfl, fun _ _ => rfl⟩ u) _)).settle fun _ _ _ => rfl

theorem sealWaitEnds_over (hv : s.visit l = some v) : ((s.sealWaitEnds l).visit l).map Visit.sealWait = some none := by
  obtain ⟨w, hw, hk⟩ := (sealWaitEnds_keeps hv).lane.visit _ (sealOver_visit hv)
  have hn : w.sealWait = none := hk.sealWait.elim id id
  exact (congrArg _ hw).trans (congrArg some hn)

/-- The turn of a position at the expiry of the seal wait. -/
theorem sealTurn {y : Visit} (hv : s.visit l = some v) (hy : (sealReady s l).visit l = some y) (q : Pos) :
    ∃ u w, Turn l q 1 (sealReady s l) y u w (u.expireSeal l q) (s.sealWaitEnds l) ∧ Told 7 s u := by
  obtain ⟨w, T⟩ := turn_of_both (q := q) (f := fun t p => t.expireSeal l p)
    (fun p hp u => expireSeal_keeps (keepAt_partsBlind hp) u) hy (Keeps.refl (keepAt q) l _)
  refine ⟨_, w, T, ?_⟩
  have h0 := sealReady_told hv
  cases q
  · exact h0.mono (by omega)
  · exact h0.expireSeal l .front

/-- No part is OPEN any longer, and none that the expiry closes is PENDING. -/
theorem sealWaitEnds_parts (hv : s.visit l = some v) (p : Pos) : ((s.sealWaitEnds l).visit l).map (fun w =>
    decide ((w.pos p).sealPart.phase = .extended ∨ (w.pos p).sealPart.phase = .closed ∧ ((w.pos p).sealPart.outcome ≠ .pending ∨
      (v.pos .front).sealPart.phase = .closed ∨ (v.pos .rear).sealPart.phase = .closed))) = some true := by
  obtain ⟨y, hy, hpos⟩ := sealReady_pos hv
  obtain ⟨u, w, T, -⟩ := sealTurn hv hy p
  have hms := (sealReady_keeps hv).claimedMoves hv
  have key : ∀ {a : Phase × SealOutcome}, Ends sealEnd l p a (s.sealWaitEnds l) → a.1 = .extended ∨ a.1 = .closed ∧
      (a.2 ≠ .pending ∨ (v.pos .front).sealPart.phase = .closed ∨ (v.pos .rear).sealPart.phase = .closed) →
      _ := fun h ha => h.after (g := fun r => decide (r.sealPart.phase = .extended ∨ r.sealPart.phase = .closed ∧
        (r.sealPart.outcome ≠ .pending ∨ (v.pos .front).sealPart.phase = .closed ∨ (v.pos .rear).sealPart.phase = .closed)))
        fun r hr => decide_eq_true (by rw [← hr] at ha; exact ha)
  obtain ⟨hz, -⟩ := hpos p
  rcases reseat_part (s.claimedMoves l) v p with h | ⟨hc, h⟩ | ⟨ho, m, hm⟩
  · rw [← hz] at h
    exact key (T.seal_untouched (by rw [h]; decide)) (.inl h)
  · rw [← hz] at hc h
    exact key (T.seal_untouched (by rw [hc]; decide)) (.inr ⟨hc, h⟩)
  · rw [← hz] at ho hm
    rw [← hms] at hm
    by_cases hl : LacksSeals m (y.pos p).sealPart
    · rcases T.seal_lacking_ends ho hm hl with h | h
      · exact key h (.inr ⟨rfl, .inl (by decide)⟩)
      · exact key h (.inl rfl)
    · exact key (T.seal_closed ho hm hl) (.inr ⟨rfl, .inl (closedOutcome_ne_pending _ _)⟩)

end Sys2Proof.Machine.ReadLaws
end

section
/-! SUPPORT. O44: the expiry of the seal wait told of the state and the visit it begins with (R76, R94, R95). -/

namespace Sys2Proof.Machine.ReadLaws

open Sys2Proof.Machine.VisitLaws

variable {s t u x : State} {l : LaneNo} {v w : Visit} {j k n : Nat} {q : Pos} {m : Move}

/-- From the moves found to the end, for a view that shows neither the parts nor the watch marks. -/
theorem sealReady_ends {α : Type} {φ : Pos → PosRec → α} (hp : ∀ p, PartsBlind φ p) (hw : WatchBlind φ) (s : State) (l : LaneNo) :
    Keeps φ 7 l (sealReady s l) (s.sealWaitEnds l) :=
  (both_keep (f := fun t p => t.expireSeal l p) (fun p u => expireSeal_keeps (hp p) u) (sealReady s l)).settle hw

theorem sealWaitEnds_unreadable {b : Bool} (hv : s.visit l = some v) (hb : expects (s.claimedMoves l) v q = b) :
    ((s.sealWaitEnds l).visit l).map (fun w => (w.pos q).unreadable) = some ((v.pos q).unreadable || b) := by
  obtain ⟨y, hy, hpos⟩ := sealReady_pos hv
  exact Ends.keeps (ψ := PosRec.unreadable) (.of_visit hy (hb ▸ (hpos q).2))
    (sealReady_ends (fun _ => ⟨fun _ _ => rfl, fun _ _ => rfl⟩) (fun _ _ _ => rfl) s l)

theorem sealWaitEnds_tells (hv : s.visit l = some v) (he : expects (s.claimedMoves l) v q = true)
    (hu : (v.pos q).unreadable = false) (hr : Room 9 s.exc) (hs : s.store.work.responseOf .idUnreadable .inspect ≠ .silent) :
    Tells s.exc.next (.idUnreadable, some l, some v.number, some q, 0, s.store.work.responseOf .idUnreadable .inspect)
      (s.sealWaitEnds l) :=
  (sealReady_ends (φ := fun _ _ => ()) (fun _ => ⟨fun _ _ => rfl, fun _ _ => rfl⟩) (fun _ _ _ => rfl) s l).tells
    ((sealReady_keeps hv).roomy hr) (sealReady_tells hv he hu (hr.mono (by omega)) hs)

/-- What the expiry makes of an open seal part with its move, told of the state and the visit it begins with. -/
structure SealWaited (s : State) (l : LaneNo) (v : Visit) (q : Pos) (m : Move) (t : State) : Prop where
  closed : ¬LacksSeals m (v.pos q).sealPart → Ends sealEnd l q (.closed, closedOutcome m (v.pos q).sealPart) t
  missing : LacksSeals m (v.pos q).sealPart → (v.pos q).sealPart.missingMark = true ∨
    s.store.work.responseOf .sealMissing .inspect ≠ .retry → Ends sealEnd l q (.closed, .missing) t
  extended : LacksSeals m (v.pos q).sealPart → (v.pos q).sealPart.missingMark = false → Room 10 s.exc →
    overridden v .sealMissing (some q) = false → s.store.work.responseOf .sealMissing .inspect = .retry →
      Ends sealEnd l q (.extended, (v.pos q).sealPart.outcome) t ∧
      (s.link.noticeCount ≤ 16 → s.store.work.mask .reread = true →
        .notice (rereadOf 1 l v.number q (textField (m.cid.getD []) ++
          listField textField (missingSeals m.seals (v.pos q).sealPart.seen))) ∈ t.link.outbox)
  tells : LacksSeals m (v.pos q).sealPart → (v.pos q).sealPart.missingMark = false → Room 10 s.exc →
    s.store.work.responseOf .sealMissing .inspect ≠ .silent → Tells s.exc.next (.sealMissing, some l, some v.number, some q,
      (missingSeals m.seals (v.pos q).sealPart.seen).length, s.store.work.responseOf .sealMissing .inspect) t
  holds : LacksSeals m (v.pos q).sealPart → (v.pos q).sealPart.missingMark = false →
    overridden v .sealMissing (some q) = false → s.store.work.responseOf .sealMissing .inspect = .hold →
      (s.lane l).state ≠ .closed → (t.lane l).state = .trouble

theorem sealWaited {b : Basis} (hv : s.visit l = some v) (hs : seat (s.claimedMoves l) v q = some (n, b))
    (hmove : (v.pos q).sealPart.move = some (n, b)) (hm : moveAt (s.claimedMoves l) n = some m)
    (ho : (v.pos q).sealPart.phase = .opened) : SealWaited s l v q m (s.sealWaitEnds l) := by
  obtain ⟨y, hy, hpos⟩ := sealReady_pos hv
  obtain ⟨u, w, T, htold⟩ := sealTurn hv hy q
  have hz : (y.pos q).sealPart = (v.pos q).sealPart := by rw [(hpos q).1, hs, reseat_own hmove]
  have hk := sealReady_keeps hv
  obtain ⟨y', hy', hvy⟩ := hk.lane.visit v hv
  obtain rfl : y = y' := Option.some.inj (hy.symm.trans hy')
  have ho' : (y.pos q).sealPart.phase = .opened := by rwa [hz]
  have hm' : ((y.pos q).sealPart.move.bind fun m => moveAt ((sealReady s l).claimedMoves l) m.1) = some m := by
    rw [hz, hmove, hk.claimedMoves hv]; exact hm
  have after := T.seal_after ho' hm'
  have hroom : Room 10 s.exc → Room (1 + 7) (sealReady s l).exc := hk.roomy
  constructor
  case closed => rw [← hz]; exact T.seal_closed ho' hm'
  case missing => rw [← hz, ← hk.store]; exact T.seal_missing ho' hm'
  case extended =>
    rw [← hz, ← hk.store, ← hvy.number, ← hvy.overridden]
    exact fun hl hmark hr hov hresp => ⟨T.seal_extended ho' hm' hl hmark hresp hov (hroom hr), fun hn hmask =>
      T.seal_rereads ho' hm' hl hmark hresp hov (hroom hr) hmask (Nat.lt_of_le_of_lt htold (by omega))⟩
  case tells =>
    rw [← hz, ← hk.store, ← hvy.number]
    exact fun hl hmark hr hresp => (T.tells (after hl hmark) (hroom hr) hresp).from hk.exc.next
  case holds =>
    rw [← hz, ← hk.store, ← hvy.overridden]
    exact fun hl hmark hov hresp hc => (T.holds (after hl hmark) hresp hov).1 (hk.lane.opened hc)

theorem responseOf_ne_silent {z : Settings} {c : ExcKind} (hz : SetByResponse z c) (h : z.response c ≠ .silent) :
    z.responseOf c .inspect ≠ .silent := by
  rw [hz]
  split
  · decide
  · exact h

end Sys2Proof.Machine.ReadLaws

open Sys2Proof Sys2Proof.Machine Sys2Proof.Machine.VisitLaws Sys2Proof.Machine.ReadLaws in
/-- Settles O44: for each wait the turn of one position, its raise by response, and what stands of it at the end. -/
theorem waitsEnd : Obligations.WaitsEnd := by
  refine fun s l hp => ⟨sealWaitExpiry_stopped hp, surveyWaitExpiry_stopped hp, fun v hv => ⟨fun hw => ?_, fun hw => ?_⟩⟩
  · have hk := sealWaitEnds_keeps hv
    refine ⟨_, sealWaitExpiry_runs hp hv hw, sealWaitEnds_over hv, hk.book, hk.bays, fun _ p => sealWaitEnds_parts hv p,
      fun hseat q n b hmove => ?_⟩
    have hs : seat (s.claimedMoves l) v q = some (n, b) := by
      cases q
      · exact (congrArg Prod.fst hseat).trans hmove
      · exact (congrArg Prod.snd hseat).trans hmove
    have hexp : expects (s.claimedMoves l) v q = (b == .expected) := by rw [expects, hs]; rfl
    intro z work roomy raised
    have hroom : roomy → Room 10 s.exc := fun h => ⟨by have := h.1; omega, by have := h.2; omega⟩
    refine ⟨sealWaitEnds_unreadable hv hexp, fun hb hu hrm hsil => ?_, fun m hma ho => ?_⟩
    · rw [hb] at hexp
      exact (sealWaitEnds_tells hv hexp hu ((hroom hrm).mono (by omega)) (responseOf_ne_silent rfl hsil)).raised
    · have hset : SetByResponse s.store.work .sealMissing := rfl
      have W := sealWaited hv hs hmove hma ho
      have hcheck := overridden_eq_false (v := v) (sealCheck_of q)
      intro lacking waits retry now check
      have hl : waits ↔ LacksSeals m z := by
        rw [LacksSeals, extraSeals_eq_nil_iff]
        exact Iff.rfl
      have tells := fun {r : Response} hwt hmark hrm
          (hresp : s.store.work.responseOf .sealMissing .inspect = r) (hr : r ≠ .silent) =>
        (hresp ▸ W.tells (hl.mp hwt) hmark (hroom hrm) (hresp ▸ hr)).raised
      refine ⟨fun hwt h => W.missing (hl.mp hwt) (h.imp_right (mt (responseOf_retry_iff hset).mp)),
        fun hwt hmark hck hrm => ⟨fun hr => ?_, fun hn => ?_, fun hr => ?_⟩, fun hwt => W.closed (mt hl.mpr hwt)⟩
      · have hresp := (responseOf_retry_iff hset).mpr hr
        obtain ⟨hend, hgo⟩ := W.extended (hl.mp hwt) hmark (hroom hrm) (hcheck.mpr hck) hresp
        rw [hwt.2.1] at hend
        refine ⟨hend, tells hwt hmark hrm hresp (by decide), fun hn hmask => ?_⟩
        rw [List.append_assoc]
        exact hgo hn hmask
      · exact tells hwt hmark hrm (responseOf_note hset hn) (by decide)
      · have hresp := responseOf_hold hset hr
        exact ⟨tells hwt hmark hrm hresp (by decide), fun hc => W.holds (hl.mp hwt) hmark (hcheck.mpr hck) hresp (hc ▸ by decide)⟩
  obtain ⟨hover, hbook⟩ := surveyWaitEnds_over hv
  refine ⟨_, surveyWaitExpiry_runs hp hv hw, hover, hbook, fun q => ?_⟩
  have hcheck := overridden_eq_false (v := v) (surveyCheck_of q)
  obtain ⟨u, w, T, hfull, htold⟩ := surveyTurn hv q
  have hset : SetByResponse s.store.work .surveyMissing := rfl
  refine ⟨fun h => (T.damage_untouched h).after fun _ => decide_eq_true, fun hm ho =>
    ⟨fun h => (T.damage_surveyed hm ho h).after fun _ => decide_eq_true, fun hg hh => ?_⟩⟩
  intro work retry holds full roomy check raised held
  have hroom : roomy → Room (1 + 7) s.exc := fun h => ⟨by have := h.1; omega, by have := h.2; omega⟩
  refine ⟨T.survey_mark hm ho hg hh, fun h => ?_, fun hmark hck => ?_⟩
  · refine Ends.after (g := fun r => decide (r.damage.phase = .closed ∧ r.damage.outcome = .unsurveyed ∧
      r.damage.effectInspect = s.store.work.surveyMissingInspect)) (T.damage_unsurveyed hm ho hg hh ?_) fun r hr => ?_
    · rw [Ne, responseOf_retry_iff hset]
      exact h.imp_right (Or.imp_right (Or.imp (fun h => (hfull h).room) fun h => Bool.eq_true_of_not_eq_false (mt hcheck.mp h)))
    · simp only [damageEnd, Prod.mk.injEq] at hr
      exact decide_eq_true hr.2
  have hover := hcheck.mpr hck
  have tells := fun {r : Response} hrm (hresp : s.store.work.responseOf .surveyMissing .inspect = r) (hr : r ≠ .silent) =>
    (hresp ▸ T.tells (T.survey_after hm ho hg hh hmark) (hroom hrm) (hresp ▸ hr)).raised
  have retried := (responseOf_retry_iff hset).mpr
  have holds := fun hr => T.holds (T.survey_after hm ho hg hh hmark) (responseOf_hold hset hr) hover
  have trouble := fun hr (hc : (s.lane l).state = .checking) => (holds hr).1 (hc ▸ by decide)
  refine ⟨fun hr hrm => ⟨tells hrm (retried hr) (by decide), ?_, fun n b m hmv hma hn hmask => ?_⟩,
    fun hn hrm => tells hrm (responseOf_note hset hn) (by decide),
    fun hr hrm => ⟨tells hrm (responseOf_hold hset hr) (by decide), trouble hr⟩,
    fun hr hf => ⟨(holds hr).2 (hfull hf).room, trouble hr⟩⟩
  · refine Ends.after (g := fun r => decide (r.damage.phase = .extended ∧ r.damage.outcome = (v.pos q).damage.outcome))
      (T.damage_extended hm ho hg hh hmark (retried hr) hover (hroom hrm)) fun r hr => ?_
    simp only [damageEnd, Prod.mk.injEq] at hr
    exact decide_eq_true ⟨hr.2.1, hr.2.2.1⟩
  · exact T.survey_rereads hm ho hg hh hmark (retried hr) hover (hroom hrm) (by rw [hmv]; exact hma) hmask
      (Nat.lt_of_le_of_lt htold (by omega))
end

section
/-! SUPPORT. O42: the table of R91, a seal joining a list (R88, R90), and where a seal read goes (R90). -/

namespace Sys2Proof.Machine.ReadLaws

open Sys2Proof.Machine.VisitLaws

variable {s t : State} {l : LaneNo} {v w : Visit} {p q : Pos} {k : Nat}

/-! ### The table of R91 -/

theorem missingSeals_ne_nil_iff (declared : List Text) (seen : List SeenSeal) :
    missingSeals declared seen ≠ [] ↔ ∃ t ∈ declared, ∀ y ∈ seen, y.text ≠ t := by
  simp [missingSeals, List.filter_eq_nil_iff]

theorem extraSeals_ne_nil_iff (declared : List Text) (seen : List SeenSeal) :
    extraSeals declared seen ≠ [] ↔ ∃ y ∈ seen, y.text ∉ declared := by
  rw [Ne, extraSeals_eq_nil_iff]
  push Not
  rfl

theorem sealOutcome_full {m : Move} (h : m.kind = .deliverFull) (seen : List SeenSeal) (f : Phase) :
    sealOutcome m seen f = if extraSeals m.seals seen ≠ [] then .mismatch else if missingSeals m.seals seen = [] then .ok
      else if f = .closed then .missing else .pending := by
  rw [sealOutcome, h]

theorem sealOutcome_unsealed {m : Move} (h : m.kind ≠ .deliverFull) (seen : List SeenSeal) (f : Phase) :
    sealOutcome m seen f = if seen ≠ [] then .unexpected else if f = .closed then .ok else .pending := by
  unfold sealOutcome
  split
  · next hk => exact absurd hk h
  · rfl

/-! ### A seal joins a list (R88, R90) -/

/-- The seal's text stands in the list. -/
abbrev seenAgain (z : SeenSeal) (xs : List SeenSeal) : Bool := xs.any fun y => y.text == z.text

/-- The list as a duplicate read leaves it: a read of the clerk makes the seal the clerk's. -/
abbrev reseen (z : SeenSeal) (xs : List SeenSeal) : List SeenSeal :=
  xs.map fun y => if y.text = z.text ∧ z.source = .clerk then { y with source := .clerk } else y

theorem addSeal_again {z : SeenSeal} {xs : List SeenSeal} (h : seenAgain z xs = true) :
    addSeal xs z = some (true, reseen z xs) := if_pos h

theorem addSeal_joins {z : SeenSeal} {xs : List SeenSeal} (h : seenAgain z xs = false) (hl : xs.length < 4) :
    addSeal xs z = some (false, xs ++ [z]) := (if_neg (by simp [h])).trans (if_pos hl)

theorem addSeal_full {z : SeenSeal} {xs : List SeenSeal} (h : seenAgain z xs = false) (hl : 4 ≤ xs.length) :
    addSeal xs z = none := (if_neg (by simp [h])).trans (if_neg (by omega))

/-! ### What a read records -/

/-- The visit with the seen seals of a position, its record made or not. -/
abbrev withSeen (v : Visit) (p : Pos) (made : Bool) (xs : List SeenSeal) : Visit :=
  v.setPos p { v.pos p with made := made, sealPart := { (v.pos p).sealPart with seen := xs } }

/-- The part with a lane's visit replaced and one more duplicate counted. -/
abbrev duplicateOf (s : State) (l : LaneNo) (v : Visit) : State := s.setLane l { s.lane l with
  visit := some v, counters := { (s.lane l).counters with duplicates := min 65535 ((s.lane l).counters.duplicates + 1) } }

theorem countDuplicate_withVisit (s : State) (l : LaneNo) (v : Visit) :
    (withVisit s l v).countDuplicate l = duplicateOf s l v := by
  rw [State.countDuplicate, State.modCounters, modLane_eq, withVisit_lane]
  exact setLane_setLane ..

theorem setSeen_eq (hv : s.visit l = some v) (p : Pos) (xs : List SeenSeal) :
    s.setSeen l p xs = withVisit s l (withSeen v p (v.pos p).made xs) := modVisit_withVisit hv _

theorem setSeen_makePos (hv : s.visit l = some v) (p : Pos) (xs : List SeenSeal) :
    (s.makePos l p).setSeen l p xs = withVisit s l (withSeen v p true xs) := by
  rw [State.makePos, State.modPos, modVisit_withVisit hv, setSeen_eq (withVisit_visit ..), withVisit_withVisit]
  cases p <;> rfl

section Before
variable (hv : s.visit l = some v) {z : SeenSeal}
include hv

theorem sealBefore_unplaced_again (h : seenAgain z v.unplaced = true) :
    sealBefore s l none z = sealReply (duplicateOf s l { v with unplaced := reseen z v.unplaced }) .duplicate := by
  simp only [sealBefore, hv, Option.map_some, Option.getD_some, addSeal_again h]
  rw [modVisit_withVisit hv, countDuplicate_withVisit]

theorem sealBefore_unplaced_joins (h : seenAgain z v.unplaced = false) (hl : v.unplaced.length < 4) :
    sealBefore s l none z = sealReply (withVisit s l { v with unplaced := v.unplaced ++ [z] }) .held := by
  simp only [sealBefore, hv, Option.map_some, Option.getD_some, addSeal_joins h hl]
  rw [modVisit_withVisit hv]

theorem sealBefore_unplaced_full (h : seenAgain z v.unplaced = false) (hl : 4 ≤ v.unplaced.length) :
    sealBefore s l none z = refuse s .full := by
  simp only [sealBefore, hv, Option.map_some, Option.getD_some, addSeal_full h hl]

theorem sealBefore_again (h : seenAgain z (v.pos p).sealPart.seen = true) : sealBefore s l (some p) z =
    sealReply (duplicateOf s l (withSeen v p (v.pos p).made (reseen z (v.pos p).sealPart.seen))) .duplicate := by
  simp only [sealBefore, posRec_eq hv, addSeal_again h]
  rw [setSeen_eq hv, countDuplicate_withVisit]

theorem sealBefore_joins (h : seenAgain z (v.pos p).sealPart.seen = false) (hl : (v.pos p).sealPart.seen.length < 4) :
    sealBefore s l (some p) z =
      sealReply (withVisit s l (withSeen v p true ((v.pos p).sealPart.seen ++ [z]))) .added := by
  simp only [sealBefore, posRec_eq hv, addSeal_joins h hl]
  rw [setSeen_makePos hv]

theorem sealBefore_full (h : seenAgain z (v.pos p).sealPart.seen = false) (hl : 4 ≤ (v.pos p).sealPart.seen.length) :
    sealBefore s l (some p) z = refuse s .full := by
  simp only [sealBefore, posRec_eq hv, addSeal_full h hl]

theorem sealAfter_again (h : seenAgain z (v.pos p).sealPart.seen = true) : sealAfter s l p z =
    sealReply (duplicateOf s l (withSeen v p (v.pos p).made (reseen z (v.pos p).sealPart.seen))) .duplicate := by
  simp only [sealAfter, posRec_eq hv, addSeal_again h]
  rw [setSeen_eq hv, countDuplicate_withVisit]

theorem sealAfter_joins (h : seenAgain z (v.pos p).sealPart.seen = false) (hl : (v.pos p).sealPart.seen.length < 4) :
    sealAfter s l p z =
      let u := withVisit s l (withSeen v p (v.pos p).made ((v.pos p).sealPart.seen ++ [z]))
      if (v.pos p).sealPart.final then sealReply u .kept else sealReply ((u.evalSeal l p).settle l) .added := by
  simp only [sealAfter, posRec_eq hv, addSeal_joins h hl]
  rw [setSeen_eq hv]

theorem sealAfter_full (h : seenAgain z (v.pos p).sealPart.seen = false) (hl : 4 ≤ (v.pos p).sealPart.seen.length) :
    sealAfter s l p z = refuse s .full := by
  simp only [sealAfter, posRec_eq hv, addSeal_full h hl]
end Before

/-! ### The working-out keeps the seen seals -/

/-- The seals seen on the box of a position. -/
def seenView (_ : Pos) (r : PosRec) : List SeenSeal := r.sealPart.seen

theorem Keeps.modSeal_seen (h : Keeps seenView k l s t) (f : SealPart → SealPart)
    (hf : ∀ x, (f x).seen = x.seen := by exact fun _ => rfl) : Keeps seenView k l s (t.modPos l p fun r => r.modSeal f) :=
  h.modPos fun r => hf r.sealPart

theorem Keeps.raiseSeal_seen (h : Keeps seenView k l s t) (p : Pos) (o : SealOutcome) (n : Nat) :
    Keeps seenView (k + 1) l s (t.raiseSeal l p o n) := by
  have h0 := h.mono (Nat.le_succ k)
  unfold State.raiseSeal
  cases o
  case mismatch => exact .ite h0 ((h.raiseVisit ..).modSeal_seen _)
  case unexpected => exact .ite h0 ((h.raiseVisit ..).modSeal_seen _)
  all_goals exact h0

theorem evalSeal_seen (s : State) (l : LaneNo) (p : Pos) (c : Bool) : Keeps seenView 1 l s (s.evalSeal l p c) := by
  have h := Keeps.refl seenView l s
  have h0 := h.mono (Nat.zero_le 1)
  simp only [State.evalSeal]
  split
  · refine .ite h0 (Keeps.evaluate (.ite (.clearEntry ?_ _) ?_) _)
    all_goals exact .ite (Keeps.raiseSeal_seen (h.modSeal_seen _) _ _ _) (h0.modSeal_seen _)
  · exact h0

/-- The seals seen on a box stand while its part is worked out and the verdict is formed. -/
theorem seen_evalSeal_settle (hv : s.visit l = some v) (p : Pos) :
    (((s.evalSeal l p).settle l).visit l).map (fun w => (w.pos p).sealPart.seen) = some (v.pos p).sealPart.seen :=
  (((evalSeal_seen s l p false).settle fun _ _ _ => rfl).shows (.of_visit hv)).at id fun _ => rfl

/-! ### Where a read goes (R88, R90) -/

/-- A position's move declares the seal. -/
abbrev Declares (s : State) (l : LaneNo) (x : Text) (q : Pos) : Prop :=
  ∃ m, s.moveOf l q = some m ∧ m.kind = .deliverFull ∧ x ∈ m.seals

theorem declares_iff (s : State) (l : LaneNo) (x : Text) (q : Pos) :
    ((s.moveOf l q).any fun m => m.kind == .deliverFull && m.seals.contains x) = true ↔ Declares s l x q := by
  simp [Option.any_eq_true]

theorem sealPlace_front {x : Text} (h : Declares s l x .front) : s.sealPlace l x = some .front := by
  simp only [State.sealPlace, bothPos, List.find?_cons, (declares_iff ..).mpr h]

theorem sealPlace_rear {x : Text} (hf : ¬Declares s l x .front) (h : Declares s l x .rear) : s.sealPlace l x = some .rear := by
  rw [← declares_iff, Bool.not_eq_true] at hf
  simp only [State.sealPlace, bothPos, List.find?_cons, hf, (declares_iff ..).mpr h]

theorem sealPlace_only {x : Text} (hf : ¬Declares s l x .front) (hr : ¬Declares s l x .rear) (q : Pos) :
    s.sealPlace l x = some q ↔ s.moveOf l q ≠ none ∧ s.moveOf l q.other = none := by
  rw [← declares_iff, Bool.not_eq_true] at hf hr
  simp only [State.sealPlace, bothPos, List.find?_cons, List.find?_nil, hf, hr]
  cases hmf : s.moveOf l .front <;> cases hmr : s.moveOf l .rear <;> cases q <;> simp [Pos.other, hmf, hmr]

/-- The position that a read naming `n` goes to after the claim. -/
def sealGoal (s : State) (l : LaneNo) (n : ReadPos) (x : Text) : Option Pos :=
  (n.named.map (s.spanPos l)).orElse fun _ => s.sealPlace l x

/-- The position that a read naming FRONT or REAR is for (R88, R90). -/
theorem named_spanPos (hv : s.visit l = some v) {n : ReadPos} (hw : n ≠ .whole) (hu : n ≠ .unknown) :
    n.named.map (s.spanPos l) = some (if n = .rear ∧ v.rear.spanning = false then .rear else .front) := by
  cases n with
  | front => simp [ReadPos.named, State.spanPos]
  | rear => cases h : v.rear.spanning <;> simp [ReadPos.named, State.spanPos, posRec_eq hv, Visit.pos, h]
  | whole => exact absurd rfl hw
  | unknown => exact absurd rfl hu

theorem sealGoal_named (hv : s.visit l = some v) {n : ReadPos} (hw : n ≠ .whole) (hu : n ≠ .unknown) (x : Text) :
    sealGoal s l n x = some (if n = .rear ∧ v.rear.spanning = false then .rear else .front) := by
  rw [sealGoal, named_spanPos hv hw hu]
  rfl

/-! ### The rule of SEAL_READ (R87) -/

/-- The form of a seal read (R87). -/
abbrev SealFormed (r : SealReq) : Prop :=
  r.pos ≠ .whole ∧ (r.source = .clerk → r.pos ≠ .unknown) ∧ sealOk r.text = true

theorem sealFormed_iff (r : SealReq) :
    SealFormed r ↔ ¬(r.pos = .whole ∨ (r.source = .clerk ∧ r.pos = .unknown) ∨ sealOk r.text = false) := by
  simp

section Rule
variable {r : SealReq} (hl : laneOf r.lane = some l)
include hl

theorem ruleSealRead_malformed (h : ¬SealFormed r) : ruleSealRead s r = refuse s .malformed :=
  (withLane_some hl _).trans (if_pos (Classical.not_not.mp (mt (sealFormed_iff r).mpr h)))

theorem ruleSealRead_notTaken (h : SealFormed r) (ht : (s.lane l).takesReads = false) :
    ruleSealRead s r = refuse s .notApplied :=
  (withLane_some hl _).trans ((if_neg ((sealFormed_iff r).mp h)).trans (takenRead_refused ht _))

variable (h : SealFormed r) (ht : (s.lane l).takesReads = true) (hv : s.visit l = some v)
include h ht hv

theorem ruleSealRead_before (hc : v.claimed = none) :
    ruleSealRead s r = sealBefore s l (r.pos.named.map (s.spanPos l)) ⟨r.text, r.source⟩ :=
  (withLane_some hl _).trans ((if_neg ((sealFormed_iff r).mp h)).trans ((takenRead_taken ht _).trans
    (if_neg (by simp [isClaimed_eq hv, hc]))))

/-- After the claim a read goes to its goal, if that has a move (R90). -/
theorem ruleSealRead_claimed (hc : v.claimed ≠ none) : ruleSealRead s r =
    ((sealGoal s l r.pos r.text).filter fun q => (s.moveOf l q).isSome).elim (refuse s .notApplied)
      fun q => sealAfter s l q ⟨r.text, r.source⟩ := by
  refine (withLane_some hl _).trans ((if_neg ((sealFormed_iff r).mp h)).trans ((takenRead_taken ht _).trans
    ((if_pos (by rw [isClaimed_eq hv, Option.isSome_iff_ne_none]; exact hc)).trans ?_)))
  rw [sealGoal]
  split
  · next hg => rw [hg]; rfl
  · next q hg =>
    rw [hg, Option.filter_some]
    cases s.moveOf l q <;> rfl

theorem ruleSealRead_after (hc : v.claimed ≠ none) (hg : sealGoal s l r.pos r.text = some p) (hm : s.moveOf l p ≠ none) :
    ruleSealRead s r = sealAfter s l p ⟨r.text, r.source⟩ := by
  rw [ruleSealRead_claimed hl h ht hv hc, hg, Option.filter_some,
    if_pos (Option.isSome_iff_ne_none.mpr hm), Option.elim_some]

theorem ruleSealRead_nowhere (hc : v.claimed ≠ none)
    (hg : ∀ q, sealGoal s l r.pos r.text = some q → s.moveOf l q = none) : ruleSealRead s r = refuse s .notApplied := by
  have hnone : (sealGoal s l r.pos r.text).filter (fun q => (s.moveOf l q).isSome) = none :=
    Option.filter_eq_none_iff.mpr fun q hq => by simp [hg q hq]
  rw [ruleSealRead_claimed hl h ht hv hc, hnone, Option.elim_none]
end Rule

end Sys2Proof.Machine.ReadLaws

open Sys2Proof Sys2Proof.Machine Sys2Proof.Machine.VisitLaws Sys2Proof.Machine.ReadLaws in
/-- Settles O42: the table of R91 by its rows, then SEAL_READ by its tests, its goal, and the list that the seal joins. -/
theorem sealsAreRead : Obligations.SealsAreRead := by
  refine ⟨fun m seen f => ⟨fun hk => ?_, fun hk => ?_⟩, fun s u tag body r hask hr => ?_⟩
  · rw [sealOutcome_full hk, ← extraSeals_ne_nil_iff, ← missingSeals_ne_nil_iff]
    exact ⟨fun he => if_pos he, fun he hm => (if_neg he).trans (if_pos (not_not.mp hm)),
      fun he hm => (if_neg he).trans (if_neg hm)⟩
  · rw [sealOutcome_unsealed hk]
    exact ⟨fun hs => if_pos hs, fun hs => if_neg (not_not_intro hs)⟩
  have answers : ∀ {a}, ruleSealRead u r = a → Answers (.sealRead tag body) s 0x13 tag a.s a.status a.data :=
    fun {_} ha => answers_of_rule rfl hask hr ha
  refine ⟨fun hl => answers (withLane_none hl _), fun l hl => ⟨fun hf => answers (ruleSealRead_malformed hl hf),
    fun hf ht => answers (ruleSealRead_notTaken hl hf ht), fun hf ht v hv => ?_⟩⟩
  intro z again marked now counted named declares goes
  have goal : ∀ q, goes q ↔ sealGoal u l r.pos r.text = some q := by
    intro q
    dsimp only [goes]
    split_ifs with hu hfront hrear
    · rw [sealGoal_named hv hf.1 hu, Option.some.injEq]
      exact eq_comm
    all_goals
      rw [ne_eq, not_not] at hu
      rw [show sealGoal u l r.pos r.text = u.sealPlace l r.text by rw [hu]; rfl]
    · rw [sealPlace_front hfront, Option.some.injEq]
      exact eq_comm
    · rw [sealPlace_rear hfront hrear, Option.some.injEq]
      exact eq_comm
    · exact (sealPlace_only hfront hrear q).symm
  have before := fun hc => ruleSealRead_before hl hf ht hv hc
  refine ⟨fun hc hu => ?_, fun hc hg => answers (ruleSealRead_nowhere hl hf ht hv hc fun q hq => hg q ((goal q).mpr hq)),
    fun p hp hto => ?_⟩
  · have unplaced := (before hc).trans (by rw [hu]; rfl : _ = sealBefore u l none z)
    exact ⟨fun h => answers (unplaced.trans (sealBefore_unplaced_again hv h)),
      fun h hn => answers (unplaced.trans (sealBefore_unplaced_joins hv h hn)),
      fun h hn => answers (unplaced.trans (sealBefore_unplaced_full hv h hn))⟩
  · intro seen withSeen
    have goesTo := (goal p).mp hp
    rcases hto with ⟨hc, hu⟩ | ⟨hc, hm⟩
    · have placed : ruleSealRead u r = sealBefore u l (some p) z := by
        rw [before hc, named_spanPos hv hf.1 hu, ← sealGoal_named hv hf.1 hu r.text, goesTo]
      exact ⟨fun h => answers (placed.trans (sealBefore_again hv h)),
        fun h hn => answers (placed.trans (sealBefore_full hv h hn)),
        fun h hn => ⟨fun _ => answers (placed.trans (sealBefore_joins hv h hn)), fun k => absurd hc k, fun k => absurd hc k⟩⟩
    · have after := ruleSealRead_after hl hf ht hv hc goesTo hm
      refine ⟨fun h => answers (after.trans (sealAfter_again hv h)), fun h hn => answers (after.trans (sealAfter_full hv h hn)),
        fun h hn => ⟨fun k => absurd k hc, fun _ he => ?_, fun _ he => ?_⟩⟩
      · exact answers (after.trans ((sealAfter_joins hv h hn).trans (if_pos he)))
      · refine ⟨_, answers (after.trans ((sealAfter_joins hv h hn).trans (if_neg (by simp [he])))), ?_⟩
        refine (seen_evalSeal_settle (withVisit_visit ..) p).trans ?_
        rw [pos_setPos, if_pos rfl]
end

section
/-! SUPPORT. O43: the arithmetic of a damage survey (R103 to R106). -/

namespace Sys2Proof.Machine.SurveyLaws

variable {ds es : List Defect} {e : Defect} {t : GradeTerms} {n : Nat}

/-! ### The filter (R103) -/

theorem survivors_survivors (n : Nat) (ds : List Defect) : survivors n (survivors n ds) = survivors n ds := by
  simp [survivors]

theorem survivors_singleton (h : n ≤ e.depth) : survivors n [e] = [e] := by
  simp [survivors, h]

theorem survivors_sublist_cons (n : Nat) (e : Defect) (ds : List Defect) :
    (survivors n ds).Sublist (survivors n (e :: ds)) := (List.sublist_cons_self e ds).filter _

theorem survivors_perm (h : es.Perm ds) (n : Nat) : (survivors n es).Perm (survivors n ds) := h.filter _

/-! ### The panel sums (R104, R105) -/

theorem panelSums_get (ds : List Defect) (p : Panel) : (panelSums ds).get p = panelSum ds p := by
  cases p <;> rfl

theorem panelSum_survivors (n : Nat) (ds : List Defect) (p : Panel) : panelSum (survivors n ds) p =
    min 500 ((ds.filter fun e => decide (n ≤ e.depth ∧ e.panel = p)).map defectPoints).sum := by
  simp only [panelSum, survivors, List.filter_filter, beq_eq_decide, Bool.and_comm, Bool.decide_and]

theorem panelSum_le (ds : List Defect) (p : Panel) : panelSum ds p ≤ 500 := Nat.min_le_left ..

/-- One defect gives its panel its points, below the cap of the sum. -/
theorem panelSum_singleton (e : Defect) (p : Panel) : panelSum [e] p = if e.panel = p then defectPoints e else 0 := by
  have hcap : defectPoints e ≤ 300 := Nat.min_le_left ..
  by_cases h : e.panel = p
  · simp [panelSum, h]
    omega
  · simp [panelSum, h]

/-- A panel's sum does not hang on the order of the defects. -/
theorem panelSum_perm (h : es.Perm ds) (p : Panel) : panelSum es p = panelSum ds p :=
  congrArg (min 500) ((h.filter _).map _).sum_eq

/-- Further defects never lower a panel's sum. -/
theorem panelSum_mono (h : ds.Sublist es) (p : Panel) : panelSum ds p ≤ panelSum es p :=
  Nat.le_min.mpr ⟨Nat.min_le_left ..,
    (Nat.min_le_right ..).trans (((h.filter _).map _).sum_le_sum fun _ _ => Nat.zero_le _)⟩

/-! ### The index (R105) -/

/-- The five panels, in the order of R105's table of weights. -/
def panelList : List Panel := [.left, .right, .frontEnd, .doorEnd, .roof]

theorem damageIndex_eq (w s : PerPanel Nat) :
    damageIndex w s = min 1000 ((panelList.map fun p => s.get p * w.get p).sum / 8) := by
  simp only [damageIndex, panelList, List.map_cons, List.map_nil, List.sum_cons, List.sum_nil, PerPanel.get, Nat.add_assoc,
    Nat.add_zero]

theorem damageIndex_le (w s : PerPanel Nat) : damageIndex w s ≤ 1000 := Nat.min_le_left ..

theorem damageIndex_mono (w : PerPanel Nat) {a b : PerPanel Nat} (h : ∀ p, a.get p ≤ b.get p) :
    damageIndex w a ≤ damageIndex w b := by
  have hsum : (panelList.map fun p => a.get p * w.get p).sum ≤ (panelList.map fun p => b.get p * w.get p).sum :=
    List.sum_le_sum fun p _ => Nat.mul_le_mul_right _ (h p)
  rw [damageIndex_eq, damageIndex_eq]
  omega

/-- A sum on one panel alone. -/
theorem damageIndex_of_one (w s : PerPanel Nat) (q : Panel) (h : ∀ p, s.get p = if q = p then n else 0) :
    damageIndex w s = min 1000 (n * w.get q / 8) := by
  rw [damageIndex_eq]
  cases q <;> simp [panelList, h]

/-! ### The grade (R106) -/

theorem breaches_survivors_iff (n : Nat) (ds : List Defect) : breaches (survivors n ds) = true ↔
    ∃ e ∈ ds, n ≤ e.depth ∧ e.type = .hole ∧ (e.panel = .doorEnd ∨ e.panel = .roof) := by
  simp [breaches, survivors]

theorem breaches_perm (h : es.Perm ds) : breaches es = breaches ds := h.any_eq

theorem gradeOf_breach (t : GradeTerms) (n : Nat) : gradeOf t n true = .severe := if_pos rfl

theorem gradeOf_sound (t : GradeTerms) (n : Nat) : gradeOf t n false =
    if n < t.note then .clean else if n < t.severe then .noted else .severe := if_neg Bool.false_ne_true

theorem gradeOf_cases (t : GradeTerms) (n : Nat) (b : Bool) :
    gradeOf t n b = .clean ∨ gradeOf t n b = .noted ∨ gradeOf t n b = .severe := by
  unfold gradeOf
  split_ifs <;> simp

/-- Thresholds that leave no room between them grade nothing NOTED. -/
theorem gradeOf_ne_noted (h : t.severe ≤ t.note) (n : Nat) (b : Bool) : gradeOf t n b ≠ .noted := by
  unfold gradeOf
  split_ifs with hb hn hs
  · decide
  · decide
  · omega
  · decide

/-! ### A part graded (R102) -/

section Graded
variable (d : DamagePart) (t : GradeTerms) (n : Nat)

theorem grade_sums_get (ds : List Defect) (p : Panel) :
    (d.grade t ⟨ds, n⟩).sums.get p = panelSum (survivors t.minDepth ds) p := panelSums_get ..

theorem grade_index_single (h : t.minDepth ≤ e.depth) :
    (d.grade t ⟨[e], n⟩).index = min 1000 (defectPoints e * t.weights.get e.panel / 8) :=
  damageIndex_of_one _ _ _ fun p => by rw [panelSums_get, survivors_singleton h, panelSum_singleton]

/-- Shallow defects do not count. -/
theorem grade_index_survivors (ds : List Defect) :
    (d.grade t ⟨survivors t.minDepth ds, n⟩).index = (d.grade t ⟨ds, n⟩).index :=
  congrArg (fun es => damageIndex t.weights (panelSums es)) (survivors_survivors ..)

theorem grade_index_perm (h : es.Perm ds) : (d.grade t ⟨es, n⟩).index = (d.grade t ⟨ds, n⟩).index := by
  have hs : panelSums (survivors t.minDepth es) = panelSums (survivors t.minDepth ds) := by
    simp only [panelSums, panelSum_perm (survivors_perm h t.minDepth)]
  exact congrArg (damageIndex t.weights) hs

theorem grade_outcome_perm (h : es.Perm ds) : (d.grade t ⟨es, n⟩).outcome = (d.grade t ⟨ds, n⟩).outcome :=
  congrArg₂ (gradeOf t) (congrArg (· - t.known) (grade_index_perm d t n h)) (breaches_perm (survivors_perm h t.minDepth))

theorem grade_index_cons_le (e : Defect) (ds : List Defect) :
    (d.grade t ⟨ds, n⟩).index ≤ (d.grade t ⟨e :: ds, n⟩).index :=
  damageIndex_mono _ fun p => by
    rw [panelSums_get, panelSums_get]
    exact panelSum_mono (survivors_sublist_cons t.minDepth e ds) p

theorem grade_outcome (sv : Survey) : (d.grade t sv).outcome = gradeOf t (d.grade t sv).excess (d.grade t sv).breach := rfl

variable {d t} {sv : Survey}

theorem grade_severe_of_breach (h : (d.grade t sv).breach = true) : (d.grade t sv).outcome = .severe := by
  rw [grade_outcome, h, gradeOf_breach]

theorem grade_outcome_of_sound (h : (d.grade t sv).breach = false) : (d.grade t sv).outcome =
    if (d.grade t sv).excess < t.note then .clean else if (d.grade t sv).excess < t.severe then .noted else .severe := by
  rw [grade_outcome, h, gradeOf_sound]
end Graded

end Sys2Proof.Machine.SurveyLaws
end

section
/-! SUPPORT. O43: what a survey held or graded makes of the damage part of its position, and where a survey goes (R100 to
R102). -/

namespace Sys2Proof.Machine.SurveyLaws

open Sys2Proof.Machine.VisitLaws Sys2Proof.Machine.ReadLaws

variable {s t : State} {l : LaneNo} {v : Visit} {k : Nat} {p : Pos} {m : Move} {r : SurveyReq} {sv : Survey}
  {d : DamagePart}

/-! ### What a damage part tells of its surveys -/

/-- A damage part without its phase and its marks of exceptions raised. -/
def unmarked (d : DamagePart) : DamagePart := { d with phase := .opened, notedMark := false, severeMark := false }

/-- The damage part of a position, without phase and marks. -/
def damageTold (r : PosRec) : DamagePart := unmarked r.damage

/-- A field that is neither the phase nor a mark, as the position ends. -/
theorem damage_of_ends {β : Type} (h : Ends damageTold l p (unmarked d) t) (f : DamagePart → β)
    (hf : ∀ x, f (unmarked x) = f x := by exact fun _ => rfl) :
    ((t.visit l).map fun w => (w.pos p).damage).map f = some (f d) := by
  obtain ⟨w, hw, he⟩ := Option.map_eq_some_iff.mp h
  rw [hw, Option.map_some, Option.map_some, ← hf, ← hf d]
  exact congrArg (fun x => some (f x)) he

theorem gradedFields_of_ends (h : Ends damageTold l p (unmarked d) t) :
    gradedFields (t.posRec l p).damage = gradedFields d := by
  obtain ⟨w, hw, he⟩ := Option.map_eq_some_iff.mp h
  rw [posRec_eq hw]
  exact (congrArg gradedFields he : gradedFields (unmarked (w.pos p).damage) = gradedFields (unmarked d))

theorem settle_ends (h : Ends damageTold l p d t) : Ends damageTold l p d (t.settle l) :=
  h.keeps ((Keeps.refl ..).settle fun _ _ _ => rfl)

/-- The fields of a GRADED reply, the grade coded as R106 lists the grades. -/
theorem gradedFields_grade (d : DamagePart) (t : GradeTerms) (sv : Survey) :
    let g := d.grade t sv
    u8 1 ++ gradedFields g = u8 1 ++ u16 g.index ++ u16 g.excess ++
      u8 (match g.outcome with | .clean => 0 | .noted => 1 | _ => 2) ++ (if g.breach then [1] else [0]) ++
      u8 g.survived := by
  intro g
  have hcode : ∀ o : DamageOutcome, o = .clean ∨ o = .noted ∨ o = .severe →
      gradeCode o = match o with | .clean => 0 | .noted => 1 | _ => 2 := by
    rintro _ (rfl | rfl | rfl) <;> rfl
  rw [gradedFields, hcode g.outcome (gradeOf_cases ..), flag]
  simp only [List.append_assoc]

/-! ### A survey held (R101) -/

theorem holdSurvey_ends (hv : s.visit l = some v) (p : Pos) (sv : Survey) :
    Ends damageTold l p (unmarked { (v.pos p).damage with held := some sv }) (s.holdSurvey l p sv) := by
  simp only [State.holdSurvey]
  exact Ends.keeps (.modPos (.of_visit hv rfl)) (.ite ((Keeps.refl ..).clearEntry _) (.refl ..))

/-! ### A survey graded (R102) -/

theorem raiseDamage_told (h : Keeps (fun _ => damageTold) k l s t) (p : Pos) (was : DamageOutcome) :
    Keeps (fun _ => damageTold) (k + 1) l s (t.raiseDamage l p was) := by
  have h0 := h.mono (Nat.le_succ k)
  simp only [State.raiseDamage]
  refine .ite h0 ?_
  split
  · exact .ite h0 ((h.raiseVisit ..).modPos fun _ => rfl)
  · exact .ite h0 ((h.raiseVisit ..).modPos fun _ => rfl)
  · exact h0

theorem gradeSurvey_ends (hv : s.visit l = some v) (hm : s.moveOf l p = some m) (sv : Survey) :
    Ends damageTold l p (unmarked ((v.pos p).damage.grade (s.gradeTerms m.known) sv)) (s.gradeSurvey l p sv) := by
  simp only [State.gradeSurvey, hm, posRec_eq hv]
  have hraised : ∀ t was, Keeps (fun _ => damageTold) 1 l t ((t.raiseDamage l p was).evaluate l (damageCheck p)) :=
    fun t was => (raiseDamage_told (.refl _ l t) p was).evaluate _
  exact Ends.keeps (.modPos (.of_visit hv rfl)) (.ite ((hraised _ _).clearEntry _) (hraised _ _))

/-! ### A survey placed (R101) -/

theorem moveOf_of_move (hv : s.visit l = some v) {b : Basis} (hm : (v.pos p).sealPart.move = some (k, b))
    (hmv : moveAt (s.claimedMoves l) k = some m) : s.moveOf l p = some m := by
  rw [moveOf_eq hv, hm]
  exact hmv

/-- The state with the survey counted in its visit. -/
def counted (s : State) (l : LaneNo) (sv : Survey) : State := s.modVisit l fun v => { v with surveys := sv.order }

theorem counted_visit (hv : s.visit l = some v) (sv : Survey) :
    (counted s l sv).visit l = some { v with surveys := sv.order } := by
  rw [counted, State.modVisit_visit, hv]
  rfl

theorem counted_keeps (s : State) (l : LaneNo) (sv : Survey) : Keeps sealCase 0 l s (counted s l sv) :=
  (Keeps.refl ..).modVisit

theorem counted_pos (v : Visit) (n : Nat) (p : Pos) : ({ v with surveys := n } : Visit).pos p = v.pos p := by
  cases p <;> rfl

section Placed
variable (hv : s.visit l = some v)
include hv

theorem counted_held (p : Pos) (sv : Survey) :
    Ends damageTold l p (unmarked { (v.pos p).damage with held := some sv }) ((counted s l sv).holdSurvey l p sv) := by
  rw [← counted_pos v sv.order]
  exact holdSurvey_ends (counted_visit hv sv) p sv

theorem counted_graded (hm : s.moveOf l p = some m) (sv : Survey) :
    Ends damageTold l p (unmarked ((v.pos p).damage.grade (s.gradeTerms m.known) sv))
      ((counted s l sv).gradeSurvey l p sv) := by
  have hk := counted_keeps s l sv
  have hterms : (counted s l sv).gradeTerms m.known = s.gradeTerms m.known := by rw [State.gradeTerms, hk.store]; rfl
  rw [← counted_pos v sv.order, ← hterms]
  exact gradeSurvey_ends (counted_visit hv sv) ((hk.moveOf hv p).trans hm) sv

theorem placeSurvey_before (hc : v.claimed = none) :
    placeSurvey s l p sv = ⟨(counted s l sv).holdSurvey l p sv, .ok, [0]⟩ :=
  if_neg (by simp [isClaimed_eq hv, hc])

variable (hc : v.claimed ≠ none)
include hc

theorem placeSurvey_claimed : placeSurvey s l p sv = match (v.pos p).sealPart.move with
    | none => refuse s .notApplied
    | some (_, .expected) => ⟨((counted s l sv).holdSurvey l p sv).settle l, .ok, [0]⟩
    | some (_, .recorded) => ⟨((counted s l sv).gradeSurvey l p sv).settle l, .ok,
        u8 1 ++ gradedFields (((counted s l sv).gradeSurvey l p sv).posRec l p).damage⟩ := by
  rw [← posRec_eq hv p]
  exact if_pos (by rwa [isClaimed_eq hv, Option.isSome_iff_ne_none])

theorem placeSurvey_unmoved (hm : (v.pos p).sealPart.move = none) : placeSurvey s l p sv = refuse s .notApplied := by
  rw [placeSurvey_claimed hv hc, hm]

theorem placeSurvey_expected (hm : (v.pos p).sealPart.move = some (k, .expected)) :
    placeSurvey s l p sv = ⟨((counted s l sv).holdSurvey l p sv).settle l, .ok, [0]⟩ := by
  rw [placeSurvey_claimed hv hc, hm]

theorem placeSurvey_recorded (hm : (v.pos p).sealPart.move = some (k, .recorded))
    (hmv : moveAt (s.claimedMoves l) k = some m) : placeSurvey s l p sv =
      ⟨((counted s l sv).gradeSurvey l p sv).settle l, .ok,
        u8 1 ++ gradedFields ((v.pos p).damage.grade (s.gradeTerms m.known) sv)⟩ := by
  rw [placeSurvey_claimed hv hc, hm, ← gradedFields_of_ends (counted_graded hv (moveOf_of_move hv hm hmv) sv)]
end Placed

/-! ### The rule of SURVEY (R100, R101) -/

theorem clampArea_eq (a : Nat) : clampArea a = max 1 (min 4095 a) := by
  unfold clampArea
  split <;> omega

/-- The position that a survey is for (R101). -/
theorem spanPos_named (hv : s.visit l = some v) (n : ReadPos) : s.spanPos l (n.named.getD .front) =
    if n = .rear ∧ v.rear.spanning = false then .rear else .front := by
  by_cases h : n = .whole ∨ n = .unknown
  · rcases h with rfl | rfl <;> rfl
  · obtain ⟨hw, hu⟩ := not_or.mp h
    have hp := named_spanPos hv hw hu
    obtain ⟨q, hq, hs⟩ := Option.map_eq_some_iff.mp hp
    rw [hq, Option.getD_some, hs]

theorem wholeRefused_iff (hv : s.visit l = some v) : s.wholeRefused l = true ↔
    (v.front.cid ≠ none ∧ v.rear.cid ≠ none ∧ v.front.cid ≠ v.rear.cid ∨
      v.claimed ≠ none ∧ v.rear.sealPart.move ≠ none) := by
  simp only [State.wholeRefused, posRec_eq hv, isClaimed_eq hv, Visit.pos, Bool.or_eq_true, Bool.and_eq_true, bne_iff_ne,
    Option.isSome_iff_ne_none, and_assoc]

/-- The survey that a request gives its visit, its areas clamped. -/
def surveyOf (v : Visit) (r : SurveyReq) : Survey :=
  ⟨r.defects.map fun e => { e with area := max 1 (min 4095 e.area) }, v.surveys + 1⟩

section Rule
variable (hl : laneOf r.lane = some l)
include hl

theorem ruleSurvey_unknown (h : r.pos = .unknown) : ruleSurvey s r = refuse s .malformed :=
  (withLane_some hl _).trans (if_pos h)

variable (hp : r.pos ≠ .unknown)
include hp

theorem ruleSurvey_long (h : 16 < r.defects.length) : ruleSurvey s r = refuse s .range :=
  (withLane_some hl _).trans ((if_neg hp).trans (if_pos h))

variable (hd : r.defects.length ≤ 16)
include hd

theorem ruleSurvey_notTaken (ht : (s.lane l).takesReads = false) : ruleSurvey s r = refuse s .notApplied :=
  (withLane_some hl _).trans ((if_neg hp).trans ((if_neg (Nat.not_lt.mpr hd)).trans (takenRead_refused ht _)))

variable (ht : (s.lane l).takesReads = true) (hv : s.visit l = some v)
include ht hv

theorem ruleSurvey_taken : ruleSurvey s r = if r.pos = .whole ∧ s.wholeRefused l then refuse s .notApplied
    else placeSurvey s l (if r.pos = .rear ∧ v.rear.spanning = false then .rear else .front) (surveyOf v r) := by
  rw [← spanPos_named hv, surveyOf]
  simp only [← clampArea_eq]
  refine (withLane_some hl _).trans ((if_neg hp).trans ((if_neg (Nat.not_lt.mpr hd)).trans
    ((takenRead_taken ht _).trans ?_)))
  simp only [hv, Option.map_some, Option.getD_some]
end Rule

end Sys2Proof.Machine.SurveyLaws

open Sys2Proof Sys2Proof.Machine Sys2Proof.Machine.VisitLaws Sys2Proof.Machine.SurveyLaws in
/-- Settles O43: the arithmetic by its stages, then SURVEY by its tests and by what the position's move makes of it. -/
theorem surveysAreGraded : Obligations.SurveysAreGraded := by
  refine ⟨fun d t ds n => ?_, fun s u tag body r hask hr => ?_⟩
  · intro g weight points panels
    have hpoints : points = defectPoints := by
      funext e
      have hw : weight e.type = typeWeight e.type := by cases e.type <;> rfl
      simp only [points, hw, defectPoints]
    refine ⟨fun p => ?_, damageIndex_eq .., fun e he => ?_, grade_index_survivors d t n ds,
      fun es h => ⟨grade_index_perm d t n h, grade_outcome_perm d t n h⟩, fun e => grade_index_cons_le d t n e ds,
      fun p => ?_, damageIndex_le .., rfl, breaches_survivors_iff .., grade_severe_of_breach, grade_outcome_of_sound,
      fun h => gradeOf_ne_noted h _ _⟩
    · rw [hpoints, ← panelSum_survivors]
      exact grade_sums_get d t n ds p
    · rw [grade_index_single d t n he]
      exact congrArg (fun x => min 1000 (x * t.weights.get e.panel / 8)) (congrFun hpoints e).symm
    · exact (grade_sums_get d t n ds p).trans_le (panelSum_le ..)
  have answers : ∀ {a}, ruleSurvey u r = a → Answers (.survey tag body) s 0x14 tag a.s a.status a.data :=
    fun {_} ha => answers_of_rule rfl hask hr ha
  refine ⟨fun hl => answers (withLane_none hl _), fun l hl => ⟨fun h => answers (ruleSurvey_unknown hl h),
    fun hp h => answers (ruleSurvey_long hl hp h), fun hp hd ht => answers (ruleSurvey_notTaken hl hp hd ht),
    fun hp hd ht v hv => ?_⟩⟩
  intro p apart taken sv move damage
  have rule := ruleSurvey_taken hl hp hd ht hv
  have hapart : (r.pos = .whole ∧ u.wholeRefused l = true) ↔ apart := and_congr_right' (wholeRefused_iff hv)
  refine ⟨fun h => answers (rule.trans (if_pos (hapart.mpr h))), fun h => ?_⟩
  have placed : ∀ {a}, placeSurvey u l p sv = a → Answers (.survey tag body) s 0x14 tag a.s a.status a.data :=
    fun {_} ha => answers ((rule.trans (if_neg (mt hapart.mp h))).trans ha)
  refine ⟨fun hc => ⟨_, placed (placeSurvey_before hv hc), ?_⟩, fun hc hm => placed (placeSurvey_unmoved hv hc hm),
    fun hc k hm => ⟨_, placed (placeSurvey_expected hv hc hm), ?_⟩, fun hc k m hm hmv => ?_⟩
  · exact damage_of_ends (counted_held hv p sv) DamagePart.held
  · exact damage_of_ends (settle_ends (counted_held hv p sv)) DamagePart.held
  · intro _ g
    have hend := settle_ends (counted_graded hv (moveOf_of_move hv hm hmv) sv)
    exact ⟨_, placed ((placeSurvey_recorded hv hc hm hmv).trans (congrArg (Ans.mk _ .ok) (gradedFields_grade ..))),
      damage_of_ends hend _, damage_of_ends hend _⟩
end

section
/-! SUPPORT. O47: the verdict by the order of R126, its notice (R127), and the conditions for an attempt (R124). -/

namespace Sys2Proof.Machine.VerdictLaws

open Sys2Proof.Machine.VisitLaws

variable {s : State} {l : LaneNo} {v : Visit}

/-! ### The first of a list that holds -/

theorem find_held_cons {β : Type} (b : Bool) (r : β) (rest : List (Bool × β)) :
    (((b, r) :: rest).find? fun x => x.1).map (fun x => x.2) = if b then some r else (rest.find? fun x => x.1).map fun x => x.2 := by
  cases b <;> rfl

/-- Nothing is found exactly when no item of the list holds. -/
theorem find_held_eq_none {β : Type} {xs : List (Bool × β)} :
    (xs.find? fun x => x.1).map (fun x => x.2) = none ↔ ∀ x ∈ xs, x.1 = false := by
  simp only [Option.map_eq_none_iff, List.find?_eq_none, Bool.not_eq_true]

/-! ### The verdict (R126) -/

theorem fails_eq (o : Outcome) : o.fails = decide (o ≠ .pending ∧ o ≠ .pass ∧ o ≠ .clean ∧ o ≠ .noted) := by
  cases o <;> rfl

theorem fails_iff (o : Outcome) : o.fails = true ↔ o ≠ .pending ∧ o ≠ .pass ∧ o ≠ .clean ∧ o ≠ .noted := by
  cases o <;> decide

/-- The grounds of a TURN_AWAY in the order of R126, each with the reason it gives. -/
def awayOrder (v : Visit) : List (Bool × Reason) :=
  let check (c : CheckName) : Reason := .check c (v.checks.value c)
  [(v.turnAwayMark, .forced), ((v.checks.value .booking).fails, check .booking),
    ((v.checks.value .timeliness).fails, check .timeliness), (decide (v.matchState ≠ .claimed), .noClaim),
    ((v.checks.value .release).fails, check .release),
    (decide (v.checks.value .idFront = .containerMismatch), check .idFront),
    (decide (v.checks.value .idRear = .containerMismatch), check .idRear)]

theorem turnAwayReason_eq (v : Visit) : turnAwayReason v = ((awayOrder v).find? fun r => r.1).map fun r => r.2 := by
  simp only [awayOrder, find_held_cons, List.find?_nil, Option.map_none, decide_eq_true_eq]
  rfl

/-- The verdict and its reason are one of three (R126). -/
theorem decideVerdict_cases (v : Visit) :
    (∃ r, turnAwayReason v = some r ∧ decideVerdict v = (.turnAway, some r)) ∨
    (∃ r, turnAwayReason v = none ∧ inspectReason v = some r ∧ decideVerdict v = (.inspect, some r)) ∨
    (turnAwayReason v = none ∧ inspectReason v = none ∧ decideVerdict v = (.admitIn, none)) := by
  cases ht : turnAwayReason v with
  | some r => exact .inl ⟨r, rfl, by simp only [decideVerdict, ht]⟩
  | none =>
    cases hi : inspectReason v with
    | some r => exact .inr (.inl ⟨r, rfl, rfl, by simp only [decideVerdict, ht, hi]⟩)
    | none => exact .inr (.inr ⟨rfl, rfl, by simp only [decideVerdict, ht, hi]⟩)

theorem decideVerdict_turnAway : (decideVerdict v).1 = .turnAway ↔ turnAwayReason v ≠ none := by
  rcases decideVerdict_cases v with ⟨r, ht, hd⟩ | ⟨r, ht, hi, hd⟩ | ⟨ht, hi, hd⟩ <;> simp [hd, ht]

theorem decideVerdict_inspect : (decideVerdict v).1 = .inspect ↔ turnAwayReason v = none ∧ inspectReason v ≠ none := by
  rcases decideVerdict_cases v with ⟨r, ht, hd⟩ | ⟨r, ht, hi, hd⟩ | ⟨ht, hi, hd⟩ <;> simp [*]

theorem decideVerdict_admitIn : (decideVerdict v).1 = .admitIn ↔ turnAwayReason v = none ∧ inspectReason v = none := by
  rcases decideVerdict_cases v with ⟨r, ht, hd⟩ | ⟨r, ht, hi, hd⟩ | ⟨ht, hi, hd⟩ <;> simp [*]

theorem reason_of_turnAway (h : (decideVerdict v).1 = .turnAway) : (decideVerdict v).2 = turnAwayReason v := by
  rcases decideVerdict_cases v with ⟨r, ht, hd⟩ | ⟨r, ht, hi, hd⟩ | ⟨ht, hi, hd⟩ <;> simp_all

theorem reason_of_inspect (h : (decideVerdict v).1 = .inspect) : (decideVerdict v).2 = inspectReason v := by
  rcases decideVerdict_cases v with ⟨r, ht, hd⟩ | ⟨r, ht, hi, hd⟩ | ⟨ht, hi, hd⟩ <;> simp_all

theorem reason_of_admitIn (h : (decideVerdict v).1 = .admitIn) : (decideVerdict v).2 = none := by
  rcases decideVerdict_cases v with ⟨r, ht, hd⟩ | ⟨r, ht, hi, hd⟩ | ⟨ht, hi, hd⟩ <;> simp_all

theorem reason_of_mark (h : v.turnAwayMark = true) : (decideVerdict v).2 = some .forced := by
  have ht : turnAwayReason v = some .forced := if_pos h
  simp only [decideVerdict, ht]

/-- A reason that names a check carries the value at which it stands. -/
theorem reason_carries_value {c : CheckName} {o : Outcome} (h : (decideVerdict v).2 = some (.check c o)) :
    o = v.checks.value c := by
  rcases decideVerdict_cases v with ⟨r, ht, hd⟩ | ⟨r, -, hi, hd⟩ | ⟨-, -, hd⟩
  · rw [hd] at h
    obtain rfl : r = .check c o := Option.some.inj h
    rw [turnAwayReason_eq, Option.map_eq_some_iff] at ht
    obtain ⟨⟨b, r⟩, hf, rfl : r = _⟩ := ht
    have hm := List.mem_of_find?_eq_some hf
    simp only [awayOrder, List.mem_cons, List.not_mem_nil, Prod.mk.injEq, Reason.check.injEq, reduceCtorEq, and_false,
      false_or, or_false] at hm
    rcases hm with ⟨-, rfl, rfl⟩ | ⟨-, rfl, rfl⟩ | ⟨-, rfl, rfl⟩ | ⟨-, rfl, rfl⟩ | ⟨-, rfl, rfl⟩ <;> rfl
  · rw [hd] at h
    obtain rfl : r = .check c o := Option.some.inj h
    obtain ⟨n, -, hn⟩ := Option.map_eq_some_iff.mp hi
    obtain ⟨rfl, rfl⟩ := Reason.check.inj hn
    rfl
  · rw [hd] at h; cases h

/-! ### The VERDICT notice (R127) -/

theorem checkFields_eq (c : CheckName) (k : Check) : checkFields c k =
    u8 k.outcome.ctorIdx ++ (match k.override with | none => [0] | some b => if b then [1] else [2]) ++ flag k.changed ++
      u8 k.ignored ++ u8 k.waivers.length ++ k.waivers.flatMap waiverField ++ u8 (k.value c).ctorIdx := by
  unfold checkFields listField
  rcases k.override with _ | _ | _ <;> simp only [List.append_assoc] <;> rfl

theorem noticeGoes_iff (s : State) : s.noticeGoes .verdict = true ↔
    s.store.work.mask .verdict = true ∧ s.link.noticeCount < 32 := by
  rw [State.noticeGoes, Bool.and_eq_true, decide_eq_true_iff]
  rfl

theorem queueNotice_visit (s : State) (n : Notice) : (s.queueNotice n).visit l = s.visit l := by
  rw [State.visit, queueNotice_lane]; rfl

theorem tellVerdict_eq (hv : s.visit l = some v) : s.tellVerdict l =
    if s.noticeGoes .verdict then withVisit (s.queueNotice (verdictNotice l v)) l { v with checks := v.checks.clearMarks }
    else s.queueNotice (verdictNotice l v) := by
  simp only [State.tellVerdict, hv]
  rw [modVisit_withVisit ((queueNotice_visit _ _).trans hv)]

/-! ### The conditions for an attempt (R124) -/

/-- The parts and checks of one position are settled. -/
def positionSettled (sc dc ic : Check) (r : PosRec) : Prop :=
  (sc.override ≠ none ∨ r.sealPart.outcome = .ok ∨ r.sealPart.outcome = .notApplicable ∨ r.sealPart.phase = .closed) ∧
    (dc.override ≠ none ∨ r.damage.graded ≠ none ∨ r.damage.phase = .closed) ∧
    (ic.override ≠ none ∨ ic.outcome ≠ .pending)

theorem checksSettled_iff (v : Visit) : checksSettled v = true ↔
    positionSettled v.checks.sealFront v.checks.damageFront v.checks.idFront v.front ∧
      positionSettled v.checks.sealRear v.checks.damageRear v.checks.idRear v.rear := by
  simp only [checksSettled, bothPos, List.all_cons, List.all_nil, Bool.and_true, Bool.and_eq_true, Bool.or_eq_true,
    Option.isSome_iff_ne_none, SealPart.final, DamagePart.final, beq_iff_eq, bne_iff_ne, positionSettled, or_assoc, and_assoc]
  rfl

theorem noRetryOpen_iff (s : State) (l : LaneNo) (n : Nat) : s.noRetryOpen l n = true ↔
    ∀ e ∈ s.exc.entries, e.state = .opened → e.response = .retry → e.lane = some l → e.visit = some n →
      checkOf e.kind e.pos = none := by
  simp only [State.noRetryOpen, Bool.not_eq_true', List.any_eq_false, Entry.retrying, Entry.ofVisit, Bool.and_eq_true,
    beq_iff_eq, Option.isSome_iff_ne_none]
  refine forall₂_congr fun e _ => ⟨fun h h1 h2 h3 h4 => ?_, fun h ⟨⟨⟨h1, h2⟩, h3, h4⟩, hc⟩ => hc (h h1 h2 h3 h4)⟩
  exact of_not_not fun hc => h ⟨⟨⟨h1, h2⟩, h3, h4⟩, hc⟩

theorem settle_elsewhere (h : (s.lane l).state ≠ .checking) : s.settle l = s := by
  unfold State.settle
  split
  · next hc _ => exact absurd hc h
  · rfl

theorem settle_checking (hc : (s.lane l).state = .checking) (hv : s.visit l = some v) :
    s.settle l = if checksSettled v ∧ s.noRetryOpen l v.number then s.attempt l else s := by
  simp only [State.settle, hc, hv]

end Sys2Proof.Machine.VerdictLaws
end

section
/-! SUPPORT. What stands of a lane's visit while its verdict is not formed (`Undecided`): the overrides, the outcomes of the checks that
are not to move, and that no further entry of an overridden check comes to stand. Plain updates, raises, evaluations. -/

namespace Sys2Proof.Machine.VerdictLaws

open Sys2Proof.Machine.VisitLaws

variable {s t u : State} {l : LaneNo} {v w : Visit} {st : LaneState}

/-! ### Entries that stand -/

/-- What tells an entry's case: whose it is and what it is about. -/
def caseOf (e : Entry) : Nat × Option LaneNo × Option Nat × ExcKind × Option Pos := (e.number, e.lane, e.visit, e.kind, e.pos)

/-- Every entry in `y` stood in `x` and is resolved if it was, or it is a later one that belongs to no check. -/
structure NoNew (x y : ExcTable) : Prop where
  next : x.next ≤ y.next
  old : ∀ e ∈ y.entries, (∃ d ∈ x.entries, caseOf d = caseOf e ∧ (d.state = .resolved → e.state = .resolved)) ∨
    x.next ≤ e.number ∧ checkOf e.kind e.pos = none

variable {x y z : ExcTable}

theorem number_of_case {d e : Entry} (h : caseOf d = caseOf e) : d.number = e.number := congrArg Prod.fst h

theorem checkOf_of_case {d e : Entry} (h : caseOf d = caseOf e) : checkOf d.kind d.pos = checkOf e.kind e.pos :=
  congrArg (fun q : Nat × Option LaneNo × Option Nat × ExcKind × Option Pos => checkOf q.2.2.2.1 q.2.2.2.2) h

theorem NoNew.same (h : y.entries = x.entries) (hn : y.next = x.next) : NoNew x y :=
  ⟨hn.ge, fun e he => .inl ⟨e, h ▸ he, rfl, id⟩⟩

theorem NoNew.trans (h : NoNew x y) (k : NoNew y z) : NoNew x z where
  next := h.next.trans k.next
  old e he := by
    rcases k.old e he with ⟨d, hd, hde, hds⟩ | ⟨hn, hc⟩
    · refine (h.old d hd).imp (fun ⟨c, hx, hcd, hcs⟩ => ⟨c, hx, hcd.trans hde, hds ∘ hcs⟩) fun ⟨hn, hc⟩ => ?_
      exact ⟨number_of_case hde ▸ hn, checkOf_of_case hde ▸ hc⟩
    · exact .inr ⟨h.next.trans hn, hc⟩

/-- Entries changed one by one, those of one case keeping it and the resolved ones staying so. -/
theorem NoNew.map (f : Entry → Entry) (hf : ∀ e, caseOf (f e) = caseOf e ∧ (e.state = .resolved → (f e).state = .resolved))
    (h : y.entries = x.entries.map f) (hn : y.next = x.next) : NoNew x y where
  next := hn.ge
  old e he := by
    obtain ⟨d, hd, rfl⟩ := List.mem_map.mp (h ▸ he)
    exact .inl ⟨d, hd, (hf d).1.symm, (hf d).2⟩

/-- An entry resolved, with whatever outcome, the others as they are. -/
theorem resolved_case (n : Nat) (o : Resolution) (e : Entry) :
    caseOf (if e.number = n then e.resolved o else e) = caseOf e ∧
      (e.state = .resolved → (if e.number = n then e.resolved o else e).state = .resolved) := by
  split
  · exact ⟨rfl, fun _ => rfl⟩
  · exact ⟨rfl, id⟩

theorem reportCleared_noNew (s : State) (n : Nat) : NoNew s.exc (s.reportCleared n).exc := by
  rcases reportCleared_exc s n with h | h
  · exact .same (by rw [h]) (by rw [h])
  · exact .map _ (resolved_case n .cleared) (by rw [h]) (by rw [h])

theorem reportCleared_lane (s : State) (n : Nat) (l : LaneNo) : (s.reportCleared n).lane l = s.lane l :=
  (reportCleared_armTo s n l).lane

/-- The entry belongs to a check of the lane's visit of a number. -/
def OfCheck (l : LaneNo) (n : Nat) (c : CheckName) (e : Entry) : Prop :=
  e.lane = some l ∧ e.visit = some n ∧ checkOf e.kind e.pos = some c

theorem OfCheck.of_case {n : Nat} {c : CheckName} {d e : Entry} (h : OfCheck l n c e) (hde : caseOf d = caseOf e) :
    OfCheck l n c d := by
  obtain ⟨-, h1, h2, h3, h4⟩ : _ ∧ d.lane = e.lane ∧ d.visit = e.visit ∧ d.kind = e.kind ∧ d.pos = e.pos := by
    simpa only [caseOf, Prod.mk.injEq] using hde
  unfold OfCheck at *
  rwa [h1, h2, h3, h4]

/-! ### What is guarded -/

/-- What is known of a visit while work goes on around it: the visit itself, the checks whose outcomes are not to move, and, if the
entries of a check are watched, that check with the numbers of those that may still stand. -/
structure Guard where
  visit : Visit
  fixed : CheckName → Prop
  check : Option CheckName
  may : Nat → Prop

/-- The check has an override in the visit. -/
def Overridden (v : Visit) (n : CheckName) : Prop := (v.checks.get n).override ≠ none

/-- A check whose entries are watched is overridden. -/
def Guard.EntriesShut (G : Guard) : Prop := ∀ c, G.check = some c → Overridden G.visit c

/-- No evaluation moves an outcome that is not to move: every such check is overridden (R122). -/
structure Guard.Shielded (G : Guard) : Prop where
  fixed : ∀ n, G.fixed n → Overridden G.visit n
  entries : G.EntriesShut

/-- The visit is the guarded one, with its overrides and with the outcomes that are not to move. -/
structure Shown (G : Guard) (w : Visit) : Prop where
  number : w.number = G.visit.number
  override : ∀ n, (w.checks.get n).override = (G.visit.checks.get n).override
  outcome : ∀ n, G.fixed n → (w.checks.get n).outcome = (G.visit.checks.get n).outcome
  attempted : G.visit.attempted = true → w.attempted = true

/-- Of the entries of the watched check only those of the numbers given stand, and these numbers are of such entries alone. -/
structure OnlyMay (G : Guard) (l : LaneNo) (x : ExcTable) : Prop where
  standing : ∀ e ∈ x.entries, ∀ c, G.check = some c → OfCheck l G.visit.number c e → e.state ≠ .resolved → G.may e.number
  named : ∀ e ∈ x.entries, G.may e.number → ∃ c, G.check = some c ∧ OfCheck l G.visit.number c e
  below : ∀ n, G.may n → n < x.next

/-- The lane holds the guarded visit. -/
structure Guarded (G : Guard) (l : LaneNo) (t : State) : Prop where
  visit : ∃ w, t.visit l = some w ∧ Shown G w
  entries : OnlyMay G l t.exc

/-- The lane holds the guarded visit without a verdict, in a state or interrupted in it. -/
structure Undecided (G : Guard) (l : LaneNo) (st : LaneState) (t : State) : Prop where
  visit : ∃ w, t.visit l = some w ∧ Shown G w ∧ w.verdict = none
  entries : OnlyMay G l t.exc
  under : (t.lane l).under = st

variable {G : Guard}

theorem OnlyMay.noNew (h : OnlyMay G l x) (k : NoNew x y) : OnlyMay G l y where
  standing e he c hc hof hs := by
    rcases k.old e he with ⟨d, hd, hde, hds⟩ | ⟨-, hn⟩
    · exact number_of_case hde ▸ h.standing d hd c hc (hof.of_case hde) (mt hds hs)
    · rw [hof.2.2] at hn; cases hn
  named e he hm := by
    rcases k.old e he with ⟨d, hd, hde, -⟩ | ⟨hn, -⟩
    · obtain ⟨c, hc, hof⟩ := h.named d hd (number_of_case hde ▸ hm)
      exact ⟨c, hc, hof.of_case hde.symm⟩
    · exact absurd (h.below _ hm) (Nat.not_lt.mpr hn)
  below n hm := (h.below n hm).trans_le k.next

/-- A further entry, of the next number, stored RESOLVED if it belongs to the watched check. -/
theorem OnlyMay.store (h : OnlyMay G l x) {es : List Entry} {e : Entry} (hes : ∀ d ∈ es, d ∈ x.entries)
    (he : y.entries = es ++ [e]) (hnum : e.number = x.next) (hn : y.next = x.next + 1)
    (hc : ∀ c, G.check = some c → OfCheck l G.visit.number c e → e.state = .resolved) : OnlyMay G l y where
  standing d hd c hgc hof hs := by
    rw [he, List.mem_append, List.mem_singleton] at hd
    rcases hd with hd | rfl
    · exact h.standing d (hes d hd) c hgc hof hs
    · exact absurd (hc c hgc hof) hs
  named d hd hm := by
    rw [he, List.mem_append, List.mem_singleton] at hd
    rcases hd with hd | rfl
    · exact h.named d (hes d hd) hm
    · exact absurd (h.below _ hm) (by omega)
  below n hm := (h.below n hm).trans (by omega)

theorem Undecided.guarded (h : Undecided G l st t) : Guarded G l t := by
  obtain ⟨w, hw, hs, -⟩ := h.visit
  exact ⟨⟨w, hw, hs⟩, h.entries⟩

theorem Shown.of_checks (h : Shown G v) (hn : w.number = v.number) (hc : w.checks = v.checks)
    (ha : v.attempted = true → w.attempted = true) : Shown G w where
  number := hn.trans h.number
  override n := by rw [hc]; exact h.override n
  outcome n hf := by rw [hc]; exact h.outcome n hf
  attempted hg := ha (h.attempted hg)

/-- The guard of a visit that watches no entries. -/
def Guard.only (v : Visit) (fixed : CheckName → Prop) : Guard := ⟨v, fixed, none, fun _ => False⟩

theorem Shown.self (G : Guard) : Shown G G.visit := ⟨rfl, fun _ => rfl, fun _ _ => rfl, id⟩

theorem OnlyMay.of_only {f : CheckName → Prop} : OnlyMay (.only v f) l x where
  standing _ _ _ hc := by cases hc
  named _ _ := False.elim
  below _ := False.elim

theorem entriesShut_only (v : Visit) (f : CheckName → Prop) : (Guard.only v f).EntriesShut := fun _ hc => by cases hc

/-! ### Evaluations (R116, R122) -/

theorem take_overridden {c : Check} (h : c.override ≠ none) (o : Outcome) : (c.take o).outcome = c.outcome := by
  obtain ⟨b, hb⟩ := Option.ne_none_iff_exists'.mp h
  unfold Check.take
  rw [hb]
  dsimp only
  split <;> rfl

theorem take_changed {c : Check} (h : c.override = none) (o : Outcome) :
    (c.take o).changed = (c.changed || o != c.outcome) := by
  unfold Check.take
  rw [h]
  dsimp only
  split
  · next ho => simp [ho]
  · next ho => simpa using Or.inr (Ne.symm ho)

/-- A check of the visit takes an outcome. -/
def taking (v : Visit) (n : CheckName) (o : Outcome) : Visit := { v with checks := v.checks.set n ((v.checks.get n).take o) }

theorem evaluate_eq (h : v.verdict = none) (ms : List Move) (n : CheckName) (a : Bool) :
    v.evaluate ms n a = taking v n (outcomeNow v ms n a) := if_neg (by rw [h]; exact Bool.false_ne_true)

theorem taking_override (v : Visit) (n k : CheckName) (o : Outcome) :
    ((taking v n o).checks.get k).override = (v.checks.get k).override := ReadLaws.take_set_override ..

theorem taking_outcome_other {n k : CheckName} (h : k ≠ n) (v : Visit) (o : Outcome) :
    (taking v n o).checks.get k = v.checks.get k := Checks.get_set_other _ _ h

/-- An outcome that is not to move does not, the check being overridden. -/
theorem Shown.taking (h : Shown G v) {n : CheckName} (hn : G.fixed n → Overridden G.visit n) (o : Outcome) :
    Shown G (taking v n o) where
  number := h.number
  override k := (taking_override v n k o).trans (h.override k)
  outcome k hk := by
    by_cases hkn : k = n
    · subst hkn
      have ho : (v.checks.get k).override ≠ none := by rw [h.override]; exact hn hk
      rw [VerdictLaws.taking, Checks.get_set_same, take_overridden ho]
      exact h.outcome k hk
    · rw [taking_outcome_other hkn]
      exact h.outcome k hk
  attempted := h.attempted

/-! ### The plain updates -/

theorem Undecided.same (h : Undecided G l st t) (hl : u.lane l = t.lane l) (he : u.exc = t.exc) : Undecided G l st u :=
  ⟨by rw [State.visit, hl]; exact h.visit, he ▸ h.entries, hl ▸ h.under⟩

theorem Undecided.ite {c : Prop} [Decidable c] (h : Undecided G l st t) (k : Undecided G l st u) :
    Undecided G l st (if c then t else u) := by
  split
  · exact h
  · exact k

theorem Undecided.foldl {α : Type} {f : State → α → State} (hf : ∀ t a, Undecided G l st t → Undecided G l st (f t a))
    (xs : List α) (h : Undecided G l st t) : Undecided G l st (xs.foldl f t) := by
  induction xs generalizing t with
  | nil => exact h
  | cons x xs ih => exact ih (hf _ _ h)

theorem Undecided.queueNotice (h : Undecided G l st t) (n : Notice) : Undecided G l st (t.queueNotice n) :=
  h.same (by simp) (by simp)

theorem Undecided.setBook (h : Undecided G l st t) (b : BookUnit) : Undecided G l st { t with book := b } := h.same rfl rfl

theorem Undecided.setExc (h : Undecided G l st t) (k : OnlyMay G l x) : Undecided G l st { t with exc := x } :=
  ⟨h.visit, k, h.under⟩

theorem Undecided.modCounters (h : Undecided G l st t) (f : LaneCounters → LaneCounters) : Undecided G l st (t.modCounters l f) :=
  ⟨by rw [State.visit, State.modCounters, State.modLane_lane]; exact h.visit, h.entries,
    by rw [State.modCounters, State.modLane_lane]; exact h.under⟩

theorem Undecided.modVisit_shown (h : Undecided G l st t) {f : Visit → Visit}
    (hf : ∀ v, Shown G v → v.verdict = none → Shown G (f v) ∧ (f v).verdict = none) : Undecided G l st (t.modVisit l f) := by
  obtain ⟨w, hw, hs, hv⟩ := h.visit
  exact ⟨⟨f w, by rw [State.modVisit_visit, hw]; rfl, hf w hs hv⟩, h.entries, by rw [State.modVisit_lane]; exact h.under⟩

/-- A change that touches neither the checks nor the verdict. -/
theorem Undecided.modVisit (h : Undecided G l st t) {f : Visit → Visit}
    (hn : ∀ v, (f v).number = v.number := by exact fun _ => rfl) (hc : ∀ v, (f v).checks = v.checks := by exact fun _ => rfl)
    (hv : ∀ v, (f v).verdict = v.verdict := by exact fun _ => rfl)
    (ha : ∀ v, v.attempted = true → (f v).attempted = true := by exact fun _ h => h) : Undecided G l st (t.modVisit l f) :=
  h.modVisit_shown fun v hs hd => ⟨hs.of_checks (hn v) (hc v) (ha v), (hv v).trans hd⟩

theorem setPos_unseen (v : Visit) (p : Pos) (r : PosRec) : (v.setPos p r).number = v.number ∧ (v.setPos p r).checks = v.checks ∧
    (v.setPos p r).verdict = v.verdict ∧ (v.setPos p r).attempted = v.attempted := by
  cases p <;> exact ⟨rfl, rfl, rfl, rfl⟩

theorem Undecided.modPos (h : Undecided G l st t) (p : Pos) (f : PosRec → PosRec) : Undecided G l st (t.modPos l p f) :=
  h.modVisit (hn := fun _ => (setPos_unseen ..).1) (hc := fun _ => (setPos_unseen ..).2.1)
    (hv := fun _ => (setPos_unseen ..).2.2.1) (ha := fun _ ha => (setPos_unseen ..).2.2.2.trans ha)

theorem Undecided.evaluate (h : Undecided G l st t) {n : CheckName} (hn : G.fixed n → Overridden G.visit n) (a : Bool := false) :
    Undecided G l st (t.evaluate l n a) :=
  h.modVisit_shown fun v hs hv => by
    rw [evaluate_eq hv]
    exact ⟨hs.taking hn _, hv⟩

/-- A lane out of TROUBLE goes on to another state. -/
theorem Undecided.changeLane (h : Undecided G l st t) {now : LaneState} (hn : now ≠ .trouble) (c : LaneCause) :
    Undecided G l now (t.changeLane l now c) := by
  refine ⟨by rw [State.visit, changeLane_lane]; exact h.visit, by rw [changeLane_exc]; exact h.entries, ?_⟩
  rw [changeLane_lane, Lane.under]
  cases now
  case trouble => exact absurd rfl hn
  all_goals rfl

/-! ### TROUBLE -/

/-- The state that a lane is in, or that its TROUBLE interrupted, is not changed by entering TROUBLE (R44, R45). -/
theorem enterTrouble_under (s : State) (l : LaneNo) : ((s.enterTrouble l).lane l).under = (s.lane l).under := by
  by_cases h : (s.lane l).state = .closed ∨ (s.lane l).state = .trouble
  · rw [State.enterTrouble, if_pos h]
  · obtain ⟨hc, ht⟩ := not_or.mp h
    have k := enterTrouble_shows hc ht
    unfold Lane.under
    rw [k.state, k.interrupted]
    cases hx : (s.lane l).state
    case trouble => exact absurd hx ht
    all_goals rfl

theorem enterTrouble_visit (s : State) (l : LaneNo) :
    (s.enterTrouble l).visit l = s.visit l ∨ (s.enterTrouble l).visit l = (s.visit l).map stilled := by
  by_cases h : (s.lane l).state = .closed ∨ (s.lane l).state = .trouble
  · rw [State.enterTrouble, if_pos h]; exact .inl rfl
  · obtain ⟨hc, ht⟩ := not_or.mp h
    exact .inr (enterTrouble_shows hc ht).visit

theorem enterTrouble_noNew (s : State) (l : LaneNo) : NoNew s.exc (s.enterTrouble l).exc := by
  by_cases h : (s.lane l).state = .closed ∨ (s.lane l).state = .trouble
  · rw [State.enterTrouble, if_pos h]; exact .same rfl rfl
  · obtain ⟨hc, ht⟩ := not_or.mp h
    have k := enterTrouble_shows hc ht
    refine .map _ (fun e => ?_) k.entries k.next
    split <;> exact ⟨rfl, id⟩

theorem enterTrouble_other {m : LaneNo} (h : l ≠ m) (s : State) : (s.enterTrouble m).lane l = s.lane l := by
  unfold State.enterTrouble
  dsimp only
  split
  · rfl
  · rw [changeLane_other _ _ _ _ h, lane_setExc, State.modLane_other _ _ _ h]

theorem Undecided.enterTrouble (h : Undecided G l st t) : Undecided G l st (t.enterTrouble l) := by
  obtain ⟨w, hw, hs, hv⟩ := h.visit
  refine ⟨?_, h.entries.noNew (enterTrouble_noNew t l), (enterTrouble_under t l).trans h.under⟩
  rcases enterTrouble_visit t l with he | he
  · exact ⟨w, he.trans hw, hs, hv⟩
  · exact ⟨stilled w, he.trans (congrArg (Option.map stilled) hw), hs.of_checks rfl rfl id, hv⟩

/-- The TROUBLE of any lane. -/
theorem Undecided.troubleOf (h : Undecided G l st t) (m : LaneNo) : Undecided G l st (t.enterTrouble m) := by
  by_cases hm : l = m
  · subst hm; exact h.enterTrouble
  · have hl := enterTrouble_other hm t
    exact ⟨by rw [State.visit, hl]; exact h.visit, h.entries.noNew (enterTrouble_noNew t m), hl ▸ h.under⟩

/-! ### Raising (R156, R157) -/

/-- What a raise for a lane comes to: nothing, a table with the same entries or with one more, and TROUBLE upon it. -/
theorem raiseExc_ind {P Q : State → Prop} {r : Raise} (hr : r.lane = some l) (same : P s)
    (table : ∀ x : ExcTable, x.entries = s.exc.entries → x.next = s.exc.next → P { s with exc := x })
    (store : ∀ (x : ExcTable) es resp n, (∀ d ∈ es, d ∈ s.exc.entries) →
      x.entries = es ++ [s.newEntry r resp (s.raiseOverridden r)] → x.next = s.exc.next + 1 →
      P (State.queueNotice { s with exc := x } n))
    (stay : ∀ t, P t → Q t) (trouble : ∀ t, P t → Q (t.enterTrouble l)) : Q (s.raiseExc r).1 := by
  simp only [State.raiseExc]
  split
  · exact stay _ same
  · split
    · simp only [State.loseException, hr]
      split
      · exact trouble _ (table { s.exc with lost := satInc s.exc.lost, full := true, unrecorded := s.exc.unrecorded.set l true } rfl rfl)
      · exact stay _ (table { s.exc with lost := satInc s.exc.lost, full := true } rfl rfl)
    · next es left he =>
      have h2 := fun resp n => store { s.exc with
        entries := es ++ [s.newEntry r resp (s.raiseOverridden r)]
        next := s.exc.next + 1, full := if left then false else s.exc.full } es resp n (room_subset he) rfl rfl
      split
      · exact stay _ (h2 _ _)
      · split
        · exact stay _ (h2 _ _)
        · exact stay _ (h2 _ _)
        · exact stay _ (h2 _ _)
        · simp only [hr]; exact trouble _ (h2 _ _)

/-- A raise of a kind of an overridden check is stored RESOLVED (R156). -/
theorem newEntry_overridden {r : Raise} {resp : Response} {c : CheckName} (hv : s.visit l = some v) (ho : Overridden v c)
    (he : OfCheck l v.number c (s.newEntry r resp (s.raiseOverridden r))) :
    (s.newEntry r resp (s.raiseOverridden r)).state = .resolved := by
  obtain ⟨hl, hn, hc⟩ := he
  have hover : s.raiseOverridden r = true := by
    simp only [State.newEntry] at hl hn hc
    simp only [State.raiseOverridden, hl, hn, hc, hv, Option.any_some, beq_self_eq_true, Bool.true_and]
    exact Option.isSome_iff_ne_none.mpr ho
  simp only [State.newEntry, hover, if_true]

theorem Undecided.raiseExc (h : Undecided G l st t) (hG : G.EntriesShut) (r : Raise) (hr : r.lane = some l) :
    Undecided G l st (t.raiseExc r).1 := by
  obtain ⟨w, hw, hsh, -⟩ := h.visit
  refine raiseExc_ind (P := Undecided G l st) hr h (fun x hx hn => h.setExc (h.entries.noNew (.same hx hn)))
    (fun x es resp n hes hx hn => (h.setExc (h.entries.store hes hx rfl hn fun c hc hof => ?_)).queueNotice n)
    (fun _ k => k) fun _ k => k.enterTrouble
  refine newEntry_overridden hw ?_ (hsh.number.symm ▸ hof)
  rw [Overridden, hsh.override]
  exact hG c hc

theorem Undecided.raiseVisit (h : Undecided G l st t) (hG : G.EntriesShut) (k : ExcKind) (p : Option Pos) (n : Nat) :
    Undecided G l st (t.raiseVisit k l p n).1 := h.raiseExc hG _ rfl

theorem Undecided.reportCleared (h : Undecided G l st t) (n : Nat) : Undecided G l st (t.reportCleared n) :=
  ⟨by rw [State.visit, reportCleared_lane]; exact h.visit, h.entries.noNew (reportCleared_noNew t n),
    by rw [reportCleared_lane]; exact h.under⟩

theorem Undecided.clearEntry (h : Undecided G l st t) (n : Option Nat) : Undecided G l st (t.clearEntry n) := by
  unfold State.clearEntry
  split
  · exact h.reportCleared _
  · exact h

theorem Undecided.clearRetry (h : Undecided G l st t) (k : ExcKind) (p : Option Pos) : Undecided G l st (t.clearRetry k l p) := by
  unfold State.clearRetry
  split
  · exact h.reportCleared _
  · exact h

/-- The failure reported of an entry escalates it in place, or counts it (R160). -/
theorem Undecided.reportFailure (h : Undecided G l st t) (n : Nat) : Undecided G l st (t.reportFailure n).1 := by
  unfold State.reportFailure
  split
  · next e he =>
    have hm := List.mem_of_find?_eq_some he
    let escalated : Entry := { e with retries := min 7 (e.retries + 1), response := .hold, left := none }
    have h1 : Undecided G l st ((t.modEntry n fun _ => escalated).queueNotice (exceptionNotice escalated true)) := by
      have hx : NoNew t.exc (t.modEntry n fun _ => escalated).exc := by
        refine ⟨Nat.le_refl _, fun d hd => .inl ?_⟩
        obtain ⟨c, hc, rfl⟩ := List.mem_map.mp hd
        split
        · exact ⟨e, hm, rfl, id⟩
        · exact ⟨c, hc, rfl, id⟩
      exact (h.setExc (h.entries.noNew hx)).queueNotice _
    split
    · dsimp only
      split
      · split
        · exact h1.troubleOf _
        · exact h1
      · refine h.setExc (h.entries.noNew (.map _ (fun d => ?_) rfl rfl))
        split <;> exact ⟨rfl, id⟩
    · exact h
  · exact h

end Sys2Proof.Machine.VerdictLaws
end

section
/-! SUPPORT. What the delivery of a verdict does to the lane's visit (`Delivers`): from DECIDED on, the visit keeps its checks, verdict and
reason, no entry of a check comes to stand, and the transmit side gains notices alone (R40 to R42, R129 to R146). -/

namespace Sys2Proof.Machine.VerdictLaws

open Sys2Proof.Machine.VisitLaws

variable {s t u : State} {l : LaneNo} {v w y : Visit}

/-! ### What delivery keeps -/

/-- The five timers of the visit have stopped. -/
def Quiet (v : Visit) : Prop :=
  v.idSettle = none ∧ v.lookup = none ∧ v.abandon = none ∧ v.sealWait = none ∧ v.surveyWait = none

/-- A visit goes on as another once its verdict is recorded. -/
structure Delivered (v w : Visit) : Prop where
  number : w.number = v.number
  checks : w.checks = v.checks
  verdict : w.verdict = v.verdict
  reason : w.reason = v.reason
  mark : w.turnAwayMark = v.turnAwayMark
  attempted : w.attempted = v.attempted
  claimed : w.matchState = .claimed ↔ v.matchState = .claimed
  quiet : Quiet v → Quiet w
  handed : v.handed = true → w.handed = true
  bay : w.handed = true ∨ w.bayStep = v.bayStep

theorem Delivered.refl (v : Visit) : Delivered v v := ⟨rfl, rfl, rfl, rfl, rfl, rfl, .rfl, id, id, .inr rfl⟩

theorem Delivered.trans (h : Delivered v w) (k : Delivered w y) : Delivered v y where
  number := k.number.trans h.number
  checks := k.checks.trans h.checks
  verdict := k.verdict.trans h.verdict
  reason := k.reason.trans h.reason
  mark := k.mark.trans h.mark
  attempted := k.attempted.trans h.attempted
  claimed := k.claimed.trans h.claimed
  quiet hq := k.quiet (h.quiet hq)
  handed hv := k.handed (h.handed hv)
  bay := by
    rcases k.bay with hy | hy
    · exact .inl hy
    · exact h.bay.imp k.handed fun hw => hy.trans hw

theorem Delivered.stilled (v : Visit) : Delivered v (stilled v) := by
  refine ⟨rfl, rfl, rfl, rfl, rfl, rfl, ?_, fun _ => ⟨rfl, rfl, rfl, rfl, rfl⟩, id, .inr rfl⟩
  show (if v.matchState = .looking then MatchState.waiting else v.matchState) = .claimed ↔ v.matchState = .claimed
  cases v.matchState <;> decide

/-- The lane is past its verdict: DECIDED, EXITING, or in a TROUBLE that interrupted DECIDED. -/
def Past (x : Lane) : Prop := x.state = .decided ∨ x.state = .exiting ∨ x.state = .trouble ∧ x.interrupted = some .decided

/-- What the delivery of a verdict keeps. -/
structure Delivers (l : LaneNo) (s t : State) : Prop where
  visit : ∀ v, s.visit l = some v → ∃ w, t.visit l = some w ∧ Delivered v w
  past : Past (s.lane l) → Past (t.lane l)
  entries : NoNew s.exc t.exc
  outbox : ∃ ms : List Notice, t.link.outbox = s.link.outbox ++ ms.map .notice

theorem Delivers.refl (l : LaneNo) (s : State) : Delivers l s s :=
  ⟨fun v hv => ⟨v, hv, .refl v⟩, id, .same rfl rfl, [], by simp⟩

theorem Delivers.trans (h : Delivers l s t) (k : Delivers l t u) : Delivers l s u where
  visit v hv := by
    obtain ⟨w, hw, hvw⟩ := h.visit v hv
    obtain ⟨y, hy, hwy⟩ := k.visit w hw
    exact ⟨y, hy, hvw.trans hwy⟩
  past hx := k.past (h.past hx)
  entries := h.entries.trans k.entries
  outbox := by
    obtain ⟨a, ha⟩ := h.outbox
    obtain ⟨b, hb⟩ := k.outbox
    exact ⟨a ++ b, by rw [hb, ha, List.map_append, List.append_assoc]⟩

theorem Delivers.ite {c : Prop} [Decidable c] (h : Delivers l s t) (k : Delivers l s u) :
    Delivers l s (if c then t else u) := by
  split
  · exact h
  · exact k

theorem Delivers.pair {β : Type} {b : β} (h : Delivers l s t) : Delivers l s (t, b).1 := h

/-! ### The plain updates -/

/-- The lane's record with other fields than its state and its visit. -/
theorem Delivers.record (h : Delivers l s t) (hv : u.visit l = t.visit l) (hs : (u.lane l).state = (t.lane l).state)
    (hi : (u.lane l).interrupted = (t.lane l).interrupted) (he : u.exc = t.exc) (hk : u.link = t.link) : Delivers l s u :=
  h.trans ⟨fun v hw => ⟨v, hv.trans hw, .refl v⟩, fun hp => by unfold Past at *; rwa [hs, hi],
    .same (by rw [he]) (by rw [he]), [], by simp [hk]⟩

theorem Delivers.modBarrier (h : Delivers l s t) (f : Barrier → Barrier) : Delivers l s (t.modBarrier l f) :=
  h.record (by rw [State.visit, State.modBarrier, State.modLane_lane]; rfl)
    (by rw [State.modBarrier, State.modLane_lane]) (by rw [State.modBarrier, State.modLane_lane]) rfl rfl

theorem Delivers.modSign (h : Delivers l s t) (f : Sign → Sign) : Delivers l s (t.modSign l f) :=
  h.record (by rw [State.visit, State.modSign, State.modLane_lane]; rfl)
    (by rw [State.modSign, State.modLane_lane]) (by rw [State.modSign, State.modLane_lane]) rfl rfl

theorem Delivers.modCounters (h : Delivers l s t) (f : LaneCounters → LaneCounters) : Delivers l s (t.modCounters l f) :=
  h.record (by rw [State.visit, State.modCounters, State.modLane_lane]; rfl)
    (by rw [State.modCounters, State.modLane_lane]) (by rw [State.modCounters, State.modLane_lane]) rfl rfl

theorem Delivers.modVisit (h : Delivers l s t) {f : Visit → Visit} (hf : ∀ v, Delivered v (f v) := by
    exact fun _ => ⟨rfl, rfl, rfl, rfl, rfl, rfl, .rfl, id, id, .inr rfl⟩) : Delivers l s (t.modVisit l f) :=
  h.trans ⟨fun v hv => ⟨f v, by rw [State.modVisit_visit, hv]; rfl, hf v⟩, fun hp => by rw [State.modVisit_lane]; exact hp,
    .same rfl rfl, [], by simp⟩

theorem queueNotice_outbox (s : State) (n : Notice) :
    ∃ ms : List Notice, (s.queueNotice n).link.outbox = s.link.outbox ++ ms.map .notice := by
  unfold State.queueNotice
  split
  · exact ⟨[], by simp⟩
  · split
    · exact ⟨[n], rfl⟩
    · exact ⟨[], by simp⟩

theorem changeLane_outbox (s : State) (l : LaneNo) (now : LaneState) (c : LaneCause) :
    ∃ ms : List Notice, (s.changeLane l now c).link.outbox = s.link.outbox ++ ms.map .notice := by
  unfold State.changeLane
  split
  · exact ⟨[], by simp⟩
  · exact queueNotice_outbox _ _

theorem Delivers.queueNotice (h : Delivers l s t) (n : Notice) : Delivers l s (t.queueNotice n) :=
  h.trans ⟨fun v hv => ⟨v, (queueNotice_visit t n).trans hv, .refl v⟩, fun hp => by rw [queueNotice_lane]; exact hp,
    .same (by rw [queueNotice_exc]) (by rw [queueNotice_exc]), queueNotice_outbox t n⟩

theorem Delivers.setPool (h : Delivers l s t) (p : BayPool) : Delivers l s { t with pool := p } :=
  h.record rfl rfl rfl rfl rfl

theorem Delivers.setExc (h : Delivers l s t) {x : ExcTable} (k : NoNew t.exc x) : Delivers l s { t with exc := x } :=
  h.trans ⟨fun v hv => ⟨v, hv, .refl v⟩, id, k, [], by simp⟩

/-- The lane goes on to a state past its verdict. -/
theorem Delivers.changeLane (h : Delivers l s t) {now : LaneState} (hn : now = .decided ∨ now = .exiting) (c : LaneCause) :
    Delivers l s (t.changeLane l now c) :=
  h.trans ⟨fun v hv => ⟨v, by rw [State.visit, changeLane_lane]; exact hv, .refl v⟩,
    fun _ => by rw [changeLane_lane]; exact hn.imp_right .inl, .same (by rw [changeLane_exc]) (by rw [changeLane_exc]),
    changeLane_outbox t l now c⟩

theorem Delivers.reportCleared (h : Delivers l s t) (n : Nat) : Delivers l s (t.reportCleared n) := by
  have hm := h.setExc (x := (t.modEntry n fun x => x.resolved .cleared).exc) (.map _ (resolved_case n .cleared) rfl rfl)
  unfold State.reportCleared
  split
  · exact .ite (hm.queueNotice _) h
  · exact h

/-! ### The barrier and the release (R41, R42) -/

theorem Delivers.arriveAt (h : Delivers l s t) (a : Arrival) : Delivers l s (t.arriveAt l a).1 := by
  rw [arriveAt_eq]
  refine .ite (Delivers.modBarrier ?_ _) (h.modBarrier _)
  unfold clearFault
  split
  · exact (h.modBarrier _).reportCleared _
  · exact h.modBarrier _

theorem Delivers.enterRaising (h : Delivers l s t) : Delivers l s (t.enterRaising l).1 := by
  simp only [State.enterRaising]
  split
  · exact (h.modBarrier _).arriveAt _
  · exact (h.modBarrier _).pair

theorem Delivers.raiseArm (h : Delivers l s t) : Delivers l s (t.raiseArm l).1 := by
  simp only [State.raiseArm]
  split
  · exact h.enterRaising
  · exact h.enterRaising
  · exact (h.modBarrier _).pair
  · exact (h.modBarrier _).pair
  · split
    · exact (h.modBarrier _).pair
    · exact h.enterRaising

theorem Delivers.enterExiting (h : Delivers l s t) : Delivers l s (t.enterExiting l) := by
  have h1 : Delivers l s (t.modLane l fun x => { x with lamp := .green }) :=
    h.record (by rw [State.visit, State.modLane_lane]; rfl) (by rw [State.modLane_lane]) (by rw [State.modLane_lane]) rfl rfl
  exact h1.changeLane (.inr rfl) _

/-- The report of UP in a lane that is not EXITING. -/
theorem Delivers.onUp (h : Delivers l s t) (hx : (t.lane l).state ≠ .exiting) : Delivers l s (t.onUp l) := by
  unfold State.onUp
  split
  · exact .ite h.enterExiting h
  · next he _ => exact absurd he hx
  · exact h

/-- A raise of the barrier in DECIDED with the lane's act on its arrival. -/
theorem Delivers.raised (h : Delivers l s t) (hd : (t.lane l).state = .decided) :
    Delivers l s (State.arrived (t.raiseArm l) l) := by
  have h1 := h.raiseArm
  obtain ⟨hn, hst⟩ := raiseArm_report t l
  unfold State.arrived
  split
  · next e => rw [e] at h1 hst; exact h1.onUp (by rw [hst, hd]; decide)
  · next e => rw [e] at hn; exact absurd rfl hn
  · next e => rw [e] at h1; exact h1

theorem Delivers.testRelease (h : Delivers l s t) : Delivers l s (t.testRelease l) := by
  simp only [State.testRelease]
  split
  · next v hd _ =>
    have h1 := Delivers.ite (c := v.verdict.isSome = true ∧ v.releaseMet = true ∧ v.raiseCommanded = false)
      ((h.modVisit (f := fun v => { v with raiseCommanded := true })).raised (by rw [State.modVisit_lane]; exact hd)) h
    exact .ite h1.enterExiting h1
  · exact h

/-! ### The group handed over (R40, R134) -/

theorem Delivers.serveSign (h : Delivers l s t) : Delivers l s (t.serveSign l) :=
  .ite ((h.modSign _).modVisit).testRelease (h.modSign _)

theorem Delivers.joinGroup (h : Delivers l s t) (g : Group) : Delivers l s (t.joinGroup l g) :=
  ((h.modSign _).modCounters _).serveSign

/-- The visit once its verdict has gone to the Direction Unit. -/
def handedOver (v : Visit) : Visit := { v with handed := true }

/-- The verdict goes to the Direction Unit, after whatever change of the bay step brought it there. -/
theorem Delivers.handOver_after (h : Delivers l s t) (hv : t.visit l = some v) {f : Visit → Visit}
    (hf : ∀ v, Delivered v (handedOver (f v))) : Delivers l s ((t.modVisit l f).handOver l) := by
  have he : (t.modVisit l f).handOver l =
      (t.modVisit l fun v => handedOver (f v)).joinGroup l ((t.modVisit l f).compose l (f v)) := by
    rw [State.handOver, State.modVisit_visit, hv]
    exact congrArg (State.joinGroup · l _) (modVisit_modVisit t l f handedOver)
  rw [he]
  exact (h.modVisit hf).joinGroup _

theorem delivered_handedOver (v : Visit) : Delivered v (handedOver v) :=
  ⟨rfl, rfl, rfl, rfl, rfl, rfl, .rfl, id, fun _ => rfl, .inl rfl⟩

theorem Delivers.handOver (h : Delivers l s t) : Delivers l s (t.handOver l) := by
  unfold State.handOver
  split
  · exact h
  · exact (h.modVisit delivered_handedOver).joinGroup _

/-- The visit has been handed over. -/
def Handed (l : LaneNo) (t : State) : Prop := ∃ w, t.visit l = some w ∧ w.handed = true

theorem handOver_handed (hv : t.visit l = some v) : Handed l (t.handOver l) := by
  have h : Delivers l (t.modVisit l handedOver) (t.handOver l) := by
    simp only [State.handOver, hv]
    exact (Delivers.refl l _).joinGroup _
  obtain ⟨w, hw, hvw⟩ := h.visit (handedOver v) (by rw [State.modVisit_visit, hv]; rfl)
  exact ⟨w, hw, hvw.handed rfl⟩

/-! ### The bay asked for (R144 to R146) -/

theorem past_enterTrouble (hd : (t.lane l).state = .decided) : Past ((t.enterTrouble l).lane l) := by
  have k := enterTrouble_shows (s := t) (l := l) (by rw [hd]; decide) (by rw [hd]; decide)
  exact .inr (.inr ⟨k.state, k.interrupted.trans (congrArg some hd)⟩)

theorem Delivers.enterTrouble (h : Delivers l s t) (hd : (t.lane l).state = .decided) : Delivers l s (t.enterTrouble l) := by
  refine h.trans ⟨fun v hv => ?_, fun _ => past_enterTrouble hd, enterTrouble_noNew t l, ?_⟩
  · rcases enterTrouble_visit t l with he | he
    · exact ⟨v, he.trans hv, .refl v⟩
    · exact ⟨_, he.trans (congrArg (Option.map VisitLaws.stilled) hv), .stilled v⟩
  · simp only [State.enterTrouble]
    split
    · exact ⟨[], by simp⟩
    · exact changeLane_outbox _ l .trouble .hold

/-- The raise, in DECIDED, of a kind that belongs to no check. -/
theorem Delivers.raiseExc (h : Delivers l s t) (hd : (t.lane l).state = .decided) (r : Raise) (hr : r.lane = some l)
    (hc : checkOf r.kind r.pos = none) : Delivers l s (t.raiseExc r).1 := by
  refine raiseExc_ind (P := fun u => Delivers l s u ∧ (u.lane l).state = .decided) hr ⟨h, hd⟩
    (fun x hx hn => ⟨h.setExc (.same hx hn), hd⟩)
    (fun x es resp n hes hx hn => ⟨(h.setExc ⟨by omega, fun e he => ?_⟩).queueNotice n, by rw [queueNotice_lane]; exact hd⟩)
    (fun _ k => k.1) fun _ k => k.1.enterTrouble k.2
  rw [hx, List.mem_append, List.mem_singleton] at he
  rcases he with he | rfl
  · exact .inl ⟨e, hes e he, rfl, id⟩
  · exact .inr ⟨Nat.le_refl _, hc⟩

theorem Delivers.requestBay (h : Delivers l s t) (hd : (t.lane l).state = .decided) : Delivers l s (t.requestBay l) := by
  unfold State.requestBay
  split
  · exact h
  · next v hv =>
    have given : ∀ p j b q, Delivers l s
        ((State.modVisit { t with pool := p } l fun v => Visit.bayDone { v with hold := j } b q).handOver l) := fun p _ _ _ =>
      (h.setPool p).handOver_after hv fun _ => ⟨rfl, rfl, rfl, rfl, rfl, rfl, .rfl, id, fun _ => rfl, .inl rfl⟩
    dsimp only
    split
    · exact given _ _ _ _
    · exact .ite (given _ _ _ _) (h.raiseExc hd _ rfl rfl)

/-! ### The entry into DECIDED (R40) -/

/-- What a visit shows once its lane has entered DECIDED. -/
structure Settles (v w : Visit) : Prop where
  delivered : Delivered (decidedVisit v) w
  ends : w.handed = true ∨ w.verdict = some .inspect ∧ w.bayStep = .pending

/-- The lane in DECIDED, before the verdict goes anywhere. -/
def decidedState (s : State) (l : LaneNo) : State := (s.modVisit l decidedVisit).changeLane l .decided .verdict

theorem enterDecided_eq (s : State) (l : LaneNo) : s.enterDecided l =
    if ((decidedState s l).visit l).any fun v => v.verdict == some .inspect then (decidedState s l).requestBay l
    else (decidedState s l).handOver l := rfl

theorem decidedState_lane (s : State) (l : LaneNo) : (decidedState s l).lane l =
    { (s.lane l).modVisit decidedVisit with state := .decided } := by
  rw [decidedState, changeLane_lane, State.modVisit_lane]

theorem decidedState_visit (hv : s.visit l = some v) : (decidedState s l).visit l = some (decidedVisit v) := by
  have hl : (s.lane l).visit = some v := hv
  rw [State.visit, decidedState_lane]
  exact congrArg (Option.map decidedVisit) hl

theorem enterDecided_delivers (s : State) (l : LaneNo) : Delivers l (decidedState s l) (s.enterDecided l) := by
  rw [enterDecided_eq]
  exact .ite ((Delivers.refl l _).requestBay (by rw [decidedState_lane])) (Delivers.refl l _).handOver

theorem enterDecided_past (s : State) (l : LaneNo) : Past ((s.enterDecided l).lane l) :=
  (enterDecided_delivers s l).past (.inl (by rw [decidedState_lane]))

theorem enterDecided_visit (hv : s.visit l = some v) : ∃ w, (s.enterDecided l).visit l = some w ∧ Settles v w := by
  have hd := decidedState_visit hv
  obtain ⟨w, hw, hvw⟩ := (enterDecided_delivers s l).visit _ hd
  refine ⟨w, hw, hvw, ?_⟩
  by_cases hi : v.verdict = some .inspect
  · refine hvw.bay.imp_right fun hb => ⟨hvw.verdict.trans hi, hb.trans ?_⟩
    simp [decidedVisit, hi]
  · have hh : s.enterDecided l = (decidedState s l).handOver l := by
      rw [enterDecided_eq, hd, if_neg]
      simpa [decidedVisit] using hi
    obtain ⟨x, hx, hxh⟩ := handOver_handed hd
    rw [← hh, hw] at hx
    cases hx
    exact .inl hxh

end Sys2Proof.Machine.VerdictLaws
end

section
/-! SUPPORT. O47: an attempt to form the verdict ends in a hold or in DECIDED (R125). -/

namespace Sys2Proof.Machine.VerdictLaws

open Sys2Proof.Machine.VisitLaws

variable {s t u : State} {l : LaneNo} {v w y : Visit} {st : LaneState} {G : Guard}

/-! ### The steps of an attempt -/

theorem setWatch_unseen (v : Visit) (i : Identity) (m : Watch) : (v.setWatch i m).number = v.number ∧
    (v.setWatch i m).checks = v.checks ∧ (v.setWatch i m).verdict = v.verdict ∧ (v.setWatch i m).attempted = v.attempted := by
  cases i with
  | plate => exact ⟨rfl, rfl, rfl, rfl⟩
  | front => unfold Visit.setWatch; dsimp only; split <;> exact ⟨rfl, rfl, rfl, rfl⟩
  | rear => exact ⟨rfl, rfl, rfl, rfl⟩

theorem Undecided.watchTest (h : Undecided G l st t) (hE : G.EntriesShut) (hW : G.fixed .watch → Overridden G.visit .watch)
    (i : Identity) : Undecided G l st (t.watchTest l i) := by
  unfold State.watchTest
  split
  · exact h
  · split
    · split
      · exact h
      · exact ((h.raiseExc hE _ rfl).modVisit (hn := fun _ => (setWatch_unseen ..).1) (hc := fun _ => (setWatch_unseen ..).2.1)
          (hv := fun _ => (setWatch_unseen ..).2.2.1) (ha := fun _ ha => (setWatch_unseen ..).2.2.2.trans ha)).evaluate hW
    · exact h

theorem Undecided.releaseStep (h : Undecided G l st t) (hE : G.EntriesShut)
    (hR : G.fixed .release → Overridden G.visit .release) : Undecided G l st (t.releaseStep l) := by
  have h1 := h.evaluate hR
  unfold State.releaseStep
  split
  · exact h
  · refine .ite h ?_
    split
    · exact .ite h1 (h1.raiseVisit hE _ _ _).modVisit
    · exact h1

/-- An attempt has been made. -/
def Guard.attempting (G : Guard) : Guard := { G with visit := { G.visit with attempted := true } }

theorem Undecided.attempting (h : Undecided G l st t) :
    Undecided G.attempting l st (t.modVisit l fun v => { v with attempted := true }) := by
  obtain ⟨w, hw, hs, hv⟩ := h.visit
  exact ⟨⟨{ w with attempted := true }, by rw [State.modVisit_visit, hw]; rfl,
    ⟨hs.number, hs.override, hs.outcome, fun _ => rfl⟩, hv⟩, ⟨h.entries.standing, h.entries.named, h.entries.below⟩,
    by rw [State.modVisit_lane]; exact h.under⟩

theorem Shown.of_attempting (h : Shown G.attempting w) : Shown G w :=
  ⟨h.number, h.override, h.outcome, fun _ => h.attempted rfl⟩

theorem OnlyMay.of_attempting {x : ExcTable} (h : OnlyMay G.attempting l x) : OnlyMay G l x := ⟨h.standing, h.named, h.below⟩

theorem Undecided.of_attempting (h : Undecided G.attempting l st t) : Undecided G l st t := by
  obtain ⟨w, hw, hs, hv⟩ := h.visit
  exact ⟨⟨w, hw, hs.of_attempting, hv⟩, h.entries.of_attempting, h.under⟩

/-- Steps 1 and 2: the watch test of each identity. -/
def watched (s : State) (l : LaneNo) : State :=
  (((s.modVisit l fun v => { v with attempted := true }).watchTest l .plate).watchTest l .front).watchTest l .rear

/-- Steps 5 and 6: WATCH evaluated and the verdict recorded. -/
def recorded (s : State) (l : LaneNo) : State := (s.evaluate l .watch true).recordVerdict l

theorem attempt_eq (hg : s.gathers l = true) (hv : s.visit l = some v) : s.attempt l =
    if (watched s l).gathers l = false then watched s l
    else if ((watched s l).releaseStep l).gathers l = false then (watched s l).releaseStep l
    else ((recorded ((watched s l).releaseStep l) l).tellVerdict l).enterDecided l :=
  if_neg (by simp [hg, hv])

theorem state_of_under {x : Lane} (h : x.state ≠ .trouble) : x.state = x.under := by
  unfold Lane.under
  split
  · next ht => exact absurd ht h
  · rfl

theorem Undecided.state (h : Undecided G l st t) (hx : (t.lane l).state ≠ .trouble) : (t.lane l).state = st :=
  (state_of_under hx).trans h.under

/-- A lane that no longer gathers, its verdict not formed, is in TROUBLE. -/
theorem Undecided.trouble (h : Undecided G l st t) (hst : st.gathers = true) (hg : t.gathers l = false) :
    (t.lane l).state = .trouble := by
  by_contra hx
  rw [State.gathers, h.state hx, hst] at hg
  cases hg

theorem Undecided.gathering (h : Undecided G l st t) (hg : ¬t.gathers l = false) : (t.lane l).state = st :=
  h.state (ReadLaws.gathers_not_trouble (Bool.not_eq_false _ ▸ hg))

/-- The verdict of R126 stands recorded in the guarded visit. -/
structure Recorded (G : Guard) (l : LaneNo) (st : LaneState) (u : State) : Prop where
  visit : ∃ y, u.visit l = some y ∧ Shown G y ∧ y.verdict = some (decideVerdict y).1 ∧ y.reason = (decideVerdict y).2
  entries : OnlyMay G l u.exc
  state : (u.lane l).state = st

/-- A visit with the verdict of R126. -/
def ruled (v : Visit) : Visit := { v with verdict := some (decideVerdict v).1, reason := (decideVerdict v).2 }

theorem Undecided.recorded (h : Undecided G l st t) (hW : G.fixed .watch → Overridden G.visit .watch)
    (hx : (t.lane l).state = st) : Recorded G l st (recorded t l) := by
  have h1 := h.evaluate hW true
  obtain ⟨w, hw, hs, -⟩ := h1.visit
  refine ⟨⟨ruled w, by rw [VerdictLaws.recorded, State.recordVerdict, State.modVisit_visit, hw]; rfl,
    hs.of_checks rfl rfl id, rfl, rfl⟩, h1.entries, ?_⟩
  rw [VerdictLaws.recorded, State.recordVerdict, State.modVisit_lane, State.evaluate, State.modVisit_lane]
  exact hx

/-- The end of an attempt: TROUBLE, the verdict not formed, or the verdict recorded, told and acted on (R125). -/
theorem attempt_ends (h : Undecided G l st s) (hst : st.gathers = true) (hx : (s.lane l).state ≠ .trouble)
    (hE : G.EntriesShut) (hR : G.fixed .release → Overridden G.visit .release)
    (hW : G.fixed .watch → Overridden G.visit .watch) :
    (Undecided G.attempting l st (s.attempt l) ∧ ((s.attempt l).lane l).state = .trouble) ∨
    ∃ u, Recorded G.attempting l st u ∧ s.attempt l = (u.tellVerdict l).enterDecided l := by
  obtain ⟨v, hv, -⟩ := h.visit
  have h1 : Undecided G.attempting l st (watched s l) :=
    ((h.attempting.watchTest hE hW .plate).watchTest hE hW .front).watchTest hE hW .rear
  have h2 := h1.releaseStep hE hR
  rw [attempt_eq (by rw [State.gathers, h.state hx]; exact hst) hv]
  split
  · next hg => exact .inl ⟨h1, h1.trouble hst hg⟩
  · split
    · next hg => exact .inl ⟨h2, h2.trouble hst hg⟩
    · next hg => exact .inr ⟨_, h2.recorded hW (h2.gathering hg), rfl⟩

/-! ### The verdict told -/

theorem tellVerdict_visit (hv : s.visit l = some v) : ∃ c : Checks, (s.tellVerdict l).visit l = some { v with checks := c } ∧
    ∀ k, (c.get k).override = (v.checks.get k).override ∧ (c.get k).outcome = (v.checks.get k).outcome := by
  rw [tellVerdict_eq hv]
  split
  · exact ⟨v.checks.clearMarks, withVisit_visit .., fun k => by rw [clearMarks_get]; exact ⟨rfl, rfl⟩⟩
  · exact ⟨v.checks, (queueNotice_visit _ _).trans hv, fun _ => ⟨rfl, rfl⟩⟩

theorem tellVerdict_exc (s : State) (l : LaneNo) : (s.tellVerdict l).exc = s.exc := by
  simp only [State.tellVerdict]
  split
  · rfl
  · split <;> simp

theorem decideVerdict_congr (hc : ∀ k, w.checks.value k = v.checks.value k) (hm : w.turnAwayMark = v.turnAwayMark)
    (hs : w.matchState = .claimed ↔ v.matchState = .claimed) : decideVerdict w = decideVerdict v := by
  simp only [decideVerdict, turnAwayReason_eq, awayOrder, inspectReason, hc, hm, ne_eq, hs]

theorem value_congr {a b : Check} (ho : a.override = b.override) (hc : a.outcome = b.outcome) (n : CheckName) :
    a.value n = b.value n := by
  rw [Check.value, Check.value, ho, hc]

theorem decidedVisit_claimed (v : Visit) : (decidedVisit v).matchState = .claimed ↔ v.matchState = .claimed :=
  (Delivered.stilled v).claimed

/-- The visit once DECIDED has been entered with the verdict told. -/
structure Concluded (y w : Visit) : Prop where
  number : w.number = y.number
  check : ∀ k, (w.checks.get k).override = (y.checks.get k).override ∧ (w.checks.get k).outcome = (y.checks.get k).outcome
  verdict : w.verdict = y.verdict
  reason : w.reason = y.reason
  attempted : w.attempted = y.attempted
  decision : decideVerdict w = decideVerdict y
  quiet : Quiet w
  ends : w.handed = true ∨ w.verdict = some .inspect ∧ w.bayStep = .pending

theorem concluded (hy : u.visit l = some y) : ∃ w, ((u.tellVerdict l).enterDecided l).visit l = some w ∧ Concluded y w := by
  obtain ⟨c, hc, hck⟩ := tellVerdict_visit hy
  obtain ⟨w, hw, hd, he⟩ := enterDecided_visit hc
  have hchecks : w.checks = c := hd.checks
  have check : ∀ k, (w.checks.get k).override = (y.checks.get k).override ∧ (w.checks.get k).outcome = (y.checks.get k).outcome :=
    fun k => by rw [hchecks]; exact hck k
  exact ⟨w, hw, hd.number, check, hd.verdict, hd.reason, hd.attempted,
    decideVerdict_congr (fun k => value_congr (check k).1 (check k).2 k) hd.mark (hd.claimed.trans (decidedVisit_claimed _)),
    hd.quiet ⟨rfl, rfl, rfl, rfl, rfl⟩, he⟩

theorem Past.states {x : Lane} (h : Past x) : x.state = .decided ∨ x.state = .exiting ∨ x.state = .trouble :=
  h.imp_right (Or.imp_right And.left)

/-- The LANE_STATE notice of DECIDED stands behind all that was told before, and only notices stand behind it. -/
theorem enterDecided_outbox (hv : s.visit l = some v) (hd : (s.lane l).state ≠ .decided) :
    ∃ ms : List Notice, (s.enterDecided l).link.outbox = (s.queueNotice ⟨.laneState, [BitVec.ofNat 8 (l.ctorIdx + 1),
      BitVec.ofNat 8 (s.lane l).state.ctorIdx, 5] ++ u16 v.number ++ [0, 5]⟩).link.outbox ++ ms.map .notice := by
  obtain ⟨ms, hms⟩ := (enterDecided_delivers s l).outbox
  refine ⟨ms, hms.trans (congrArg (· ++ _) ?_)⟩
  have hst : ((s.modVisit l decidedVisit).lane l).state = (s.lane l).state := by rw [State.modVisit_lane]; rfl
  have hn : ((s.modVisit l decidedVisit).lane l).visitNumber = v.number :=
    visitNumber_of_visit (v := decidedVisit v) (by rw [State.modVisit_visit, hv]; rfl)
  rw [decidedState, State.changeLane, if_neg (by rw [hst]; exact hd), hst, hn, State.modLane, queueNotice_setLane, State.modVisit,
    State.modLane, queueNotice_setLane]
  rfl

/-! ### The conditions of an INSPECT (R126) -/

theorem inspectReason_map (v : Visit) : inspectReason v =
    ((inspectOrder.map fun n => (n, inspectMeets n (v.checks.value n))).find? fun c => c.2).map fun c =>
      .check c.1 (v.checks.value c.1) := by
  rw [List.find?_map, Option.map_map]
  rfl

theorem inspectMeets_id {n : CheckName} (o : Outcome) (h : n = .idFront ∨ n = .idRear) :
    inspectMeets n o = decide (o = .idConflict ∨ o = .idUnreadable ∨ o = .fail) := by
  rcases h with rfl | rfl <;> cases o <;> rfl

theorem inspectMeets_seal {n : CheckName} (o : Outcome) (h : n = .sealFront ∨ n = .sealRear) :
    inspectMeets n o = decide (o ≠ .pending ∧ o ≠ .pass ∧ o ≠ .clean ∧ o ≠ .noted) := by
  rcases h with rfl | rfl <;> cases o <;> rfl

theorem inspectMeets_damage {n : CheckName} (o : Outcome) (h : n = .damageFront ∨ n = .damageRear) :
    inspectMeets n o = decide (o = .severe ∨ o = .surveyMissing) := by
  rcases h with rfl | rfl <;> cases o <;> rfl

theorem inspectMeets_watch (o : Outcome) : inspectMeets .watch o = decide (o = .watchHit ∨ o = .fail) := by
  cases o <;> rfl

end Sys2Proof.Machine.VerdictLaws

open Sys2Proof Sys2Proof.Machine Sys2Proof.Machine.VisitLaws Sys2Proof.Machine.VerdictLaws in
/-- Settles O47: the verdict and its reason as the first that holds of a list, the notice's fields regrouped as the statement lists
them, the conditions of an attempt, and an attempt followed to its end. -/
theorem verdictsAreDecided : Obligations.VerdictsAreDecided := by
  refine ⟨fun v => ?_, fun s l v d hv hd => ?_, fun v ms c a hv => ?_, fun s l v hv => ?_, fun s l v hv hn hst => ?_⟩
  · intro stands fails away idBad damageBad inspect
    have hfails : ∀ c, fails c ↔ (stands c).fails = true := fun c => (fails_iff _).symm
    have haway : away ↔ turnAwayReason v ≠ none := by
      rw [turnAwayReason_eq, ne_eq, find_held_eq_none]
      simp only [awayOrder, List.forall_mem_cons, List.not_mem_nil, false_implies, implies_true, and_true, away, hfails]
      simp only [not_and_or, Bool.not_eq_false, decide_eq_false_iff_not, not_not, ne_eq]
      rfl
    have hmeets : inspectOrder.map (fun n => (n, inspectMeets n (stands n))) =
        [(.idFront, decide (idBad .idFront)), (.idRear, decide (idBad .idRear)), (.sealFront, decide (fails .sealFront)),
          (.sealRear, decide (fails .sealRear)), (.damageFront, decide (damageBad .damageFront)),
          (.damageRear, decide (damageBad .damageRear)),
          (.watch, decide (stands .watch = .watchHit ∨ stands .watch = .fail))] := by
      simp only [inspectOrder, List.map_cons, List.map_nil, inspectMeets_id _ (.inl rfl), inspectMeets_id _ (.inr rfl),
        inspectMeets_seal _ (.inl rfl), inspectMeets_seal _ (.inr rfl), inspectMeets_damage _ (.inl rfl),
        inspectMeets_damage _ (.inr rfl), inspectMeets_watch]
      rfl
    have hinspect : inspect ↔ inspectReason v ≠ none := by
      rw [inspectReason_map, hmeets, ne_eq, Option.map_eq_none_iff, List.find?_eq_none]
      simp only [List.forall_mem_cons, List.not_mem_nil, false_implies, implies_true, and_true, decide_eq_true_eq, not_and_or,
        not_not]
      rfl
    refine ⟨haway.trans decideVerdict_turnAway.symm, ?_, ?_, reason_of_mark, reason_of_admitIn, fun c o => reason_carries_value,
      fun h => ?_, fun h => ?_⟩
    · rw [decideVerdict_inspect, haway, hinspect, not_not]
    · rw [decideVerdict_admitIn, haway, hinspect, not_not, not_not]
    · rw [reason_of_turnAway h, turnAwayReason_eq]
      simp only [awayOrder, fails_eq]
      rfl
    · rw [reason_of_inspect h, inspectReason_map, hmeets]
  · intro mark place reason waiver names check n goes told
    have hwaiver : waiver = waiverField := by
      funext w
      cases w <;> rfl
    have hchecks : names.flatMap (fun c => check c (v.checks.get c)) = checksFields v.checks := by
      refine congrArg (fun f => names.flatMap f) (funext fun c => ?_)
      rw [checkFields_eq, ← hwaiver]
      rfl
    have hverdict : verdictNotice.optVerdict v = u8 d.ctorIdx := by rw [verdictNotice.optVerdict, hd]
    have hreason : reason = optField reasonField v.reason := by
      simp only [reason]
      rcases v.reason with _ | _ | _ | ⟨c, o⟩ <;> rfl
    have htimely : (match v.timeliness with | none => [0] | some c => [1] ++ u8 c.ctorIdx) =
        optField (fun t : Timeliness => u8 t.ctorIdx) v.timeliness := by
      cases v.timeliness <;> rfl
    have hn : n = verdictNotice l v := by
      rw [verdictNotice, hverdict, ← hreason, ← htimely, ← hchecks]
      rfl
    have htell := tellVerdict_eq hv
    rw [← hn] at htell
    refine ⟨fun h => htell.trans (if_neg (mt (noticeGoes_iff s).mp h)), fun h => ⟨v.checks.clearMarks, clearMarks_get _, ?_⟩⟩
    rw [htell, if_pos ((noticeGoes_iff s).mpr h), withVisit, queueNotice_lane]
  · exact if_pos (Option.isSome_iff_ne_none.mpr hv)
  · intro settled c ready
    have hready : ready ↔ checksSettled v = true ∧ s.noRetryOpen l v.number = true := by
      rw [checksSettled_iff, noRetryOpen_iff, and_assoc]
      rfl
    refine ⟨fun h => ?_, fun hc hr => (settle_checking hc hv).trans (if_pos (hready.mp hr))⟩
    by_cases hc : (s.lane l).state = .checking
    · exact (settle_checking hc hv).trans (if_neg (mt hready.mpr (h.resolve_left (not_not_intro hc))))
    · exact settle_elsewhere hc
  · intro t
    have hg : (s.lane l).state.gathers = true := by rcases hst with h | h | h <;> rw [h] <;> rfl
    have hx : (s.lane l).state ≠ .trouble := by rcases hst with h | h | h <;> rw [h] <;> decide
    have h0 : Undecided (Guard.only v fun _ => False) l (s.lane l).state s :=
      ⟨⟨v, hv, .self _, hn⟩, .of_only, (state_of_under hx).symm⟩
    rcases attempt_ends h0 hg hx (entriesShut_only v _) False.elim False.elim with ⟨h1, htr⟩ | ⟨u, hu, ht⟩
    · obtain ⟨w, hw, hs, hwn⟩ := h1.visit
      exact ⟨w, hw, hs.number, hs.attempted rfl, .inl ⟨htr, hwn⟩⟩
    · obtain ⟨y, hy, hs, hyv, hyr⟩ := hu.visit
      obtain ⟨w, hw, hc⟩ := concluded hy
      obtain ⟨c, hcv, -⟩ := tellVerdict_visit hy
      have hstate : ((u.tellVerdict l).lane l).state = (s.lane l).state := (ReadLaws.tellVerdict_state u l).trans hu.state
      obtain ⟨ms, hms⟩ := enterDecided_outbox hcv (by rw [hstate]; intro h; rw [h] at hg; cases hg)
      obtain ⟨q1, q2, q3, q4, q5⟩ := hc.quiet
      rw [hstate] at hms
      refine ⟨w, (congrArg (State.visit · l) ht).trans hw, hc.number.trans hs.number, hc.attempted.trans (hs.attempted rfl),
        .inr ⟨?_, ?_, q1, q2, q3, q4, q5, hc.ends, ?_, u, y, hy, hs.number, hyv, hyr, hc.verdict.symm, hc.reason.symm, hu.state,
          ht, ms, ?_⟩⟩
      · rw [hc.decision]; exact hc.verdict.trans hyv
      · rw [hc.decision]; exact hc.reason.trans hyr
      · have hp := (enterDecided_past (u.tellVerdict l) l).states
        rwa [← ht] at hp
      · rw [show ({ y with checks := c } : Visit).number = v.number from hs.number] at hms
        exact (congrArg (fun x => x.link.outbox) ht).trans hms
end

section
/-! SUPPORT. O46: the work on the positions of a visit, the search and the claim leave what is guarded of it as it is, up to the attempt
that may form its verdict (R30 to R39, R75 to R78, R89 to R113, R125). -/

namespace Sys2Proof.Machine.VerdictLaws

open Sys2Proof.Machine.VisitLaws

variable {s t u : State} {l : LaneNo} {v w y : Visit} {st : LaneState} {G : Guard}

/-! ### The verdict formed -/

/-- The lane holds the guarded visit, its verdict formed. -/
structure Formed (G : Guard) (l : LaneNo) (t : State) : Prop where
  visit : ∃ w, t.visit l = some w ∧ Shown G w ∧ w.verdict ≠ none
  entries : OnlyMay G l t.exc
  past : Past (t.lane l)

theorem Formed.guarded (h : Formed G l t) : Guarded G l t := by
  obtain ⟨w, hw, hs, -⟩ := h.visit
  exact ⟨⟨w, hw, hs⟩, h.entries⟩

theorem Formed.delivers (h : Formed G l s) (k : Delivers l s t) : Formed G l t := by
  obtain ⟨v, hv, hs, hd⟩ := h.visit
  obtain ⟨w, hw, hvw⟩ := k.visit v hv
  exact ⟨⟨w, hw, hs.of_checks hvw.number hvw.checks fun ha => hvw.attempted.trans ha, hvw.verdict ▸ hd⟩,
    h.entries.noNew k.entries, k.past h.past⟩

/-- The verdict once told and acted on. -/
theorem Recorded.formed (h : Recorded G l st u) : Formed G l ((u.tellVerdict l).enterDecided l) := by
  obtain ⟨y, hy, hs, hyv, -⟩ := h.visit
  obtain ⟨w, hw, hc⟩ := concluded hy
  have hexc : (decidedState (u.tellVerdict l) l).exc = u.exc := by
    rw [decidedState, changeLane_exc, State.modVisit_exc, tellVerdict_exc]
  refine ⟨⟨w, hw, ⟨hc.number.trans hs.number, fun n => (hc.check n).1.trans (hs.override n),
      fun n hn => (hc.check n).2.trans (hs.outcome n hn), fun ha => hc.attempted.trans (hs.attempted ha)⟩, ?_⟩,
    (hexc ▸ h.entries : OnlyMay G l (decidedState (u.tellVerdict l) l).exc).noNew (enterDecided_delivers ..).entries,
    enterDecided_past ..⟩
  rw [hc.verdict, hyv]
  exact Option.some_ne_none _

/-- The lane still gathers reads for the guarded visit, or its verdict has been formed. -/
def Ongoing (G : Guard) (l : LaneNo) (t : State) : Prop :=
  (∃ st : LaneState, st.gathers = true ∧ Undecided G l st t) ∨ Formed G l t

theorem Ongoing.guarded (h : Ongoing G l t) : Guarded G l t := by
  rcases h with ⟨_, -, h⟩ | h
  · exact h.guarded
  · exact h.guarded

theorem Undecided.ongoing (h : Undecided G l st t) (hst : st.gathers = true) : Ongoing G l t := .inl ⟨st, hst, h⟩

theorem Ongoing.ite {c : Prop} [Decidable c] (h : Ongoing G l t) (k : Ongoing G l u) : Ongoing G l (if c then t else u) := by
  split
  · exact h
  · exact k

theorem Formed.of_attempting (h : Formed G.attempting l t) : Formed G l t := by
  obtain ⟨w, hw, hs, hd⟩ := h.visit
  exact ⟨⟨w, hw, hs.of_attempting, hd⟩, h.entries.of_attempting, h.past⟩

/-- An attempt, for a guard that lets RELEASE and WATCH be evaluated. -/
theorem Undecided.attempt (h : Undecided G l st t) (hst : st.gathers = true) (hE : G.EntriesShut)
    (hR : G.fixed .release → Overridden G.visit .release) (hW : G.fixed .watch → Overridden G.visit .watch) :
    Ongoing G l (t.attempt l) := by
  by_cases hx : (t.lane l).state = .trouble
  · rw [attempt_of_trouble hx]
    exact h.ongoing hst
  · rcases attempt_ends h hst hx hE hR hW with ⟨h1, -⟩ | ⟨u, hu, he⟩
    · exact h1.of_attempting.ongoing hst
    · rw [he]
      exact .inr hu.formed.of_attempting

/-- The conditions tested, for such a guard (R124). -/
theorem Undecided.settle (h : Undecided G l st t) (hst : st.gathers = true) (hE : G.EntriesShut)
    (hR : G.fixed .release → Overridden G.visit .release) (hW : G.fixed .watch → Overridden G.visit .watch) :
    Ongoing G l (t.settle l) := by
  unfold State.settle
  split
  · exact .ite (h.attempt hst hE hR hW) (h.ongoing hst)
  · exact h.ongoing hst

section Shielded
variable (hG : G.Shielded)
include hG

theorem Undecided.evaluated (h : Undecided G l st t) (n : CheckName) : Undecided G l st (t.evaluate l n) :=
  h.evaluate (hG.fixed n)

theorem Undecided.raises (h : Undecided G l st t) (k : ExcKind) (p : Option Pos) (n : Nat) :
    Undecided G l st (t.raiseVisit k l p n).1 := h.raiseVisit hG.entries k p n

theorem Undecided.attempted (h : Undecided G l st t) (hst : st.gathers = true) : Ongoing G l (t.attempt l) :=
  h.attempt hst hG.entries (hG.fixed _) (hG.fixed _)

theorem Undecided.settled (h : Undecided G l st t) (hst : st.gathers = true) : Ongoing G l (t.settle l) :=
  h.settle hst hG.entries (hG.fixed _) (hG.fixed _)

/-! ### Seals and surveys -/

theorem Undecided.raiseSeal (h : Undecided G l st t) (p : Pos) (o : SealOutcome) (n : Nat) :
    Undecided G l st (t.raiseSeal l p o n) := by
  unfold State.raiseSeal
  cases o
  case mismatch => exact .ite h ((h.raises hG _ _ _).modPos _ _)
  case unexpected => exact .ite h ((h.raises hG _ _ _).modPos _ _)
  all_goals exact h

theorem Undecided.evalSeal (h : Undecided G l st t) (p : Pos) (c : Bool) : Undecided G l st (t.evalSeal l p c) := by
  simp only [State.evalSeal]
  split
  · refine .ite h (Undecided.evaluated hG (.ite (.clearEntry ?_ _) ?_) _)
    all_goals exact .ite ((h.modPos _ _).raiseSeal hG _ _ _) (h.modPos _ _)
  · exact h

theorem Undecided.closeSeal (h : Undecided G l st t) (p : Pos) : Undecided G l st (t.closeSeal l p) := by
  unfold State.closeSeal
  dsimp only
  split
  · refine .ite (h.modPos _ _) (Undecided.evaluated hG ?_ _)
    exact .ite ((h.modPos _ _).raiseSeal hG _ _ _) (h.modPos _ _)
  · exact h.modPos _ _

theorem Undecided.raiseDamage (h : Undecided G l st t) (p : Pos) (was : DamageOutcome) :
    Undecided G l st (t.raiseDamage l p was) := by
  have marked : ∀ k n f, Undecided G l st ((t.raiseVisit k l (some p) n).1.modPos l p f) := fun k n f =>
    (h.raises hG k _ n).modPos p f
  simp only [State.raiseDamage]
  refine .ite h ?_
  split
  · exact .ite h (marked _ _ _)
  · exact .ite h (marked _ _ _)
  · exact h

theorem Undecided.gradeSurvey (h : Undecided G l st t) (p : Pos) (sv : Survey) : Undecided G l st (t.gradeSurvey l p sv) := by
  simp only [State.gradeSurvey]
  split
  · exact h
  · have h1 := fun f o => ((h.modPos p f).raiseDamage hG p o).evaluated hG (damageCheck p)
    exact .ite ((h1 _ _).clearEntry _) (h1 _ _)

theorem Undecided.gradeHeld (h : Undecided G l st t) (p : Pos) : Undecided G l st (t.gradeHeld l p) := by
  simp only [State.gradeHeld]
  split
  · exact .ite (h.gradeSurvey hG _ _) h
  · exact h

theorem Undecided.unsurveyed (h : Undecided G l st t) (p : Pos) : Undecided G l st (t.unsurveyed l p) :=
  (h.modPos p _).evaluated hG _

/-! ### The steps of the claim -/

theorem Undecided.evaluateIds (h : Undecided G l st t) : Undecided G l st (t.evaluateIds l) :=
  (h.evaluated hG _).evaluated hG _

theorem Undecided.raiseMismatch (h : Undecided G l st t) (p : Pos) (n : Nat) : Undecided G l st (t.raiseMismatch l p n) := by
  have h0 : Undecided G l st (t.makePos l p) := h.modPos p _
  exact .ite h0 (((h0.raises hG _ _ _).modPos p _).evaluated hG _)

theorem Undecided.flagForeign (h : Undecided G l st t) : Undecided G l st (t.flagForeign l) :=
  Undecided.foldl (fun _ _ k => .ite (k.raiseMismatch hG _ _) k) _ h

theorem Undecided.comparePlates (h : Undecided G l st t) : Undecided G l st (t.comparePlates l) := by
  unfold State.comparePlates
  split
  · exact .ite h (h.raises hG _ _ _)
  · exact h

theorem Undecided.spanBox (h : Undecided G l st t) (x : Text) : Undecided G l st (t.spanBox l x) := by
  have h1 : Undecided G l st (t.modVisit l fun v => v.span x) := h.modVisit
  have h2 := Undecided.ite (c := (t.posRec l .rear).sealPart.outcome ≠ .notApplicable) (h1.evaluated hG .sealRear) h1
  exact .ite (h2.evaluated hG _) h2

theorem Undecided.widen (h : Undecided G l st t) : Undecided G l st (t.widen l) := by
  refine Undecided.foldl (fun t m k => ?_) _ h
  split
  · exact k
  · refine .ite k ?_
    split
    · exact k
    · exact .ite ((k.spanBox hG _).clearRetry _ _) (k.raiseMismatch hG _ _)

theorem Undecided.findMoves (h : Undecided G l st t) : Undecided G l st (t.findMoves l) := by
  unfold State.findMoves
  split
  · exact h
  · have follow : ∀ (b : Bool) (n : CheckName) {x : State}, Undecided G l st x →
        Undecided G l st (if b then x.evaluate l n else x) := fun _ n _ hx => .ite (hx.evaluated hG n) hx
    exact follow _ _ (follow _ _ (follow _ _ (follow _ _ h.modVisit)))

omit hG in
theorem Undecided.placeUnplaced (h : Undecided G l st t) : Undecided G l st (t.placeUnplaced l) := by
  refine Undecided.foldl (fun t m k => ?_) _ h.modVisit
  split
  · exact k
  · split
    · exact k
    · exact (k.modPos _ _).modCounters _
    · exact k.modPos _ _

theorem Undecided.judgeParts (h : Undecided G l st t) : Undecided G l st
    (bothPos.foldl (fun t p => t.gradeHeld l p)
      (bothPos.foldl (fun t p => if (t.posRec l p).recorded then t.evalSeal l p else t) t)) :=
  .foldl (fun _ _ k => k.gradeHeld hG _) _ (.foldl (fun _ _ k => .ite (k.evalSeal hG _ _) k) _ h)

/-! ### The search (R30 to R36) -/

omit hG in
theorem Undecided.endLookup (h : Undecided G l st t) : Undecided G l st (t.endLookup l) := h.modVisit

omit hG in
theorem Undecided.setMatch (h : Undecided G l st t) (m : MatchState) : Undecided G l st (t.setMatch l m) := h.modVisit

omit hG in
theorem Undecided.startAbandon (h : Undecided G l st t) : Undecided G l st (t.startAbandon l) := .ite h.modVisit h

theorem Undecided.bookingEvent (h : Undecided G l st t) (o : Outcome) : Undecided G l st (t.bookingEvent l o) :=
  Undecided.evaluated hG h.modVisit _

theorem Undecided.timelinessEvent (h : Undecided G l st t) (o : Outcome) : Undecided G l st (t.timelinessEvent l o) :=
  Undecided.evaluated hG h.modVisit _

variable (hst : st.gathers = true)
include hst

theorem Undecided.searchFailed (h : Undecided G l st t) : Ongoing G l (t.searchFailed l) := (h.setMatch _).attempted hG hst

theorem Undecided.searchGivenUp (h : Undecided G l st t) : Ongoing G l (t.searchGivenUp l) :=
  .ite (h.endLookup.searchFailed hG hst) (h.ongoing hst)

theorem Undecided.noBooking (h : Undecided G l st t) (d : Nat) : Ongoing G l (t.noBooking l d) := by
  have h1 := h.endLookup.bookingEvent hG .noBooking
  have h2 := h1.raises hG .noBooking none d
  simp only [State.noBooking]
  refine .ite ?_ ?_
  · split
    · exact .ite (((h1.reportFailure _).setMatch _).ongoing hst) ((h1.reportFailure _).ongoing hst)
    · exact h1.ongoing hst
  · split
    · exact h2.modVisit.ongoing hst
    · exact (h2.setMatch _).ongoing hst
    · exact h2.searchFailed hG hst

theorem Undecided.bookingInUse (h : Undecided G l st t) (holder : LaneNo) : Ongoing G l (t.bookingInUse l holder) :=
  (((h.endLookup.setMatch _).bookingEvent hG _).raises hG _ _ _).searchFailed hG hst

theorem Undecided.windowLateFull (h : Undecided G l st t) (n w : Nat) : Ongoing G l (t.windowLateFull l n w) :=
  ((Undecided.timelinessEvent hG h.endLookup.modVisit _).raises hG _ _ _).searchFailed hG hst

omit hst in
theorem Undecided.takeClaim (h : Undecided G l st t) (k : Booking) (c : Timeliness) : Ongoing G l (t.takeClaim l k c) := by
  have h1 : Undecided G l .checking _ := ((h.modVisit (f := fun v =>
    { v with
      matchState := .claimed, claimed := some k.number, timeliness := some c, idSettle := none, lookup := none
      sealWait := some t.store.work.sealWait, surveyWait := some t.store.work.surveyWait })).changeLane
    (now := .checking) (by decide) .matched)
  have h2 := (((h1.startAbandon).clearRetry .noBooking none).bookingEvent hG .pass).timelinessEvent hG
    (if c = .early then .windowEarly else .pass)
  have h3 := Undecided.ite (c := c = .early) (h2.raises hG .windowEarly none (30 * k.window - t.clock.minute)) h2
  exact (((((h3.widen hG).flagForeign hG).comparePlates hG).findMoves hG).placeUnplaced.judgeParts hG |>.evaluateIds hG).settled
    hG rfl

theorem Undecided.claimBooking (h : Undecided G l st t) (n : Nat) : Ongoing G l (t.claimBooking l n) := by
  simp only [State.claimBooking]
  split
  · split
    · exact (h.setBook _).takeClaim hG _ _
    · exact h.ongoing hst
  · exact h.bookingInUse hG hst _
  · exact h.windowLateFull hG hst _ _
  · exact h.noBooking hG hst _
  · exact h.noBooking hG hst _

omit hG hst in
theorem Undecided.noCandidate (h : Undecided G l st t) : Ongoing G l (t.noCandidate l) := by
  have h1 : Undecided G l st (t.sendLookup l) := by
    unfold State.sendLookup
    split
    · exact h
    · exact (h.queueNotice _).modVisit
  exact (h1.changeLane (now := .awaitingHost) (by decide) _).startAbandon.ongoing rfl

theorem Undecided.tryMatch (h : Undecided G l st t) : Ongoing G l (t.tryMatch l) := by
  have h1 : Undecided G l st ((t.endLookup l).modVisit l fun v => { v with idSettle := none }) := h.endLookup.modVisit
  have search : ∀ v : Visit, Ongoing G l (match candidate t.book t.clock.minute v with
      | some k =>
        match k.state, k.claim with
        | .inLane, some (holder, _) => ((t.endLookup l).modVisit l fun v => { v with idSettle := none }).bookingInUse l holder
        | _, _ => ((t.endLookup l).modVisit l fun v => { v with idSettle := none }).claimBooking l k.number
      | none => ((t.endLookup l).modVisit l fun v => { v with idSettle := none }).noCandidate l) := by
    intro v
    split
    · split
      · exact h1.bookingInUse hG hst _
      · exact h1.claimBooking hG hst _
    · exact h1.noCandidate
  unfold State.tryMatch
  split
  · exact search _
  · exact search _
  · exact h.ongoing hst
end Shielded

end Sys2Proof.Machine.VerdictLaws
end

section
/-! SUPPORT. O46: the entries of a check resolved under its override, and the return of the lane from TROUBLE that may follow (R46, R121,
R162). -/

namespace Sys2Proof.Machine.VerdictLaws

open Sys2Proof.Machine.VisitLaws

variable {s t u : State} {l : LaneNo} {v w : Visit} {st : LaneState} {G : Guard} {n : Nat} {ns : List Nat} {e : Entry}

/-! ### The return from TROUBLE (R46) -/

/-- The lane back in a state, its retry timers running again. -/
def backIn (s : State) (l : LaneNo) (st : LaneState) : State :=
  ((s.modLane l fun x => { x with interrupted := none, noted := ⟨false, false, false⟩ }).changeLane l st .holdEnded).restartRetries l

theorem backIn_lane (s : State) (l : LaneNo) (st : LaneState) : (backIn s l st).lane l =
    { s.lane l with interrupted := none, noted := ⟨false, false, false⟩, state := st } := by
  rw [backIn, State.restartRetries, lane_setExc, changeLane_lane, State.modLane_lane]

theorem backIn_noNew (s : State) (l : LaneNo) (st : LaneState) : NoNew s.exc (backIn s l st).exc := by
  have hx : ((s.modLane l fun x => { x with interrupted := none, noted := ⟨false, false, false⟩ }).changeLane l st .holdEnded).exc =
      s.exc := changeLane_exc ..
  rw [← hx]
  refine .map _ (fun e => ?_) rfl rfl
  split <;> exact ⟨rfl, id⟩

theorem Undecided.backIn (h : Undecided G l st t) : Undecided G l st (backIn t l st) := by
  refine ⟨by rw [State.visit, backIn_lane]; exact h.visit, h.entries.noNew (backIn_noNew t l st), ?_⟩
  rw [backIn_lane]
  cases st <;> rfl

theorem delivers_backIn (t : State) (l : LaneNo) : Delivers l t (backIn t l .decided) :=
  ⟨fun v hv => ⟨v, by rw [State.visit, backIn_lane]; exact hv, .refl v⟩, fun _ => by rw [backIn_lane]; exact .inl rfl,
    backIn_noNew t l .decided, changeLane_outbox _ l .decided .holdEnded⟩

theorem returnLane_elsewhere (h : (s.lane l).state ≠ .trouble) : s.returnLane l = s := by
  unfold State.returnLane
  split
  · next ht _ => exact absurd ht h
  · rfl

/-- A lane in TROUBLE stays there while it is held, and else takes up the state interrupted. -/
theorem returnLane_trouble (ht : (s.lane l).state = .trouble) (hi : (s.lane l).interrupted = some st) : s.returnLane l =
    if s.held l then s
    else match (motive := LaneState → State) st with
      | .idle => (backIn s l st).takeUpIdle l
      | .arriving | .awaitingHost => (backIn s l st).resumeSearch l (s.lane l).noted
      | .checking => (backIn s l st).resumeChecking l (s.lane l).noted
      | .decided => (backIn s l st).resumeDecided l
      | .exiting => (backIn s l st).resumeExiting l
      | .closed | .trouble => backIn s l st := by
  unfold State.returnLane
  rw [ht, hi]
  cases st <;> rfl

theorem Delivers.resumeDecided (h : Delivers l s t) : Delivers l s (t.resumeDecided l) := by
  unfold State.resumeDecided
  split
  · exact h
  · exact (Delivers.ite h.handOver h).testRelease

/-- A verdict formed stands through the return from a TROUBLE that interrupted DECIDED. -/
theorem Formed.returnLane (h : Formed G l t) : Formed G l (t.returnLane l) := by
  by_cases ht : (t.lane l).state = .trouble
  · have hi : (t.lane l).interrupted = some .decided := by
      rcases h.past with hd | hd | hd
      · rw [ht] at hd; cases hd
      · rw [ht] at hd; cases hd
      · exact hd.2
    rw [returnLane_trouble ht hi]
    split
    · exact h
    · exact h.delivers (delivers_backIn t l).resumeDecided
  · rwa [returnLane_elsewhere ht]

theorem Formed.settle (h : Formed G l t) : Formed G l (t.settle l) := by
  rw [settle_elsewhere]
  · exact h
  · rcases h.past with hd | hd | hd
    · rw [hd]; decide
    · rw [hd]; decide
    · rw [hd.1]; decide

section Shielded
variable (hG : G.Shielded)
include hG

theorem Undecided.resumeSearch (h : Undecided G l st t) (hst : st.gathers = true) (m : Noted) :
    Ongoing G l (t.resumeSearch l m) := by
  have h1 := h.startAbandon
  unfold State.resumeSearch
  dsimp only
  split
  · exact h1.attempted hG hst
  · exact h1.tryMatch hG hst
  · exact .ite (h1.modVisit.ongoing hst) (h1.ongoing hst)
  · exact h1.ongoing hst

theorem Undecided.resumeChecking (h : Undecided G l st t) (hst : st.gathers = true) (m : Noted) :
    Ongoing G l (t.resumeChecking l m) :=
  (Undecided.startAbandon h.modVisit).settled hG hst

theorem Ongoing.returnLane (h : Ongoing G l t) : Ongoing G l (t.returnLane l) := by
  rcases h with ⟨st, hst, h⟩ | h
  · by_cases ht : (t.lane l).state = .trouble
    · have hi : (t.lane l).interrupted = some st := by
        have hu := h.under
        rw [Lane.under, ht] at hu
        cases hx : (t.lane l).interrupted with
        | some a => rw [hx] at hu; exact congrArg some hu
        | none => rw [hx] at hu; subst hu; cases hst
      rw [returnLane_trouble ht hi]
      refine .ite (h.ongoing hst) ?_
      have hb := h.backIn
      cases st
      case arriving => exact hb.resumeSearch hG hst _
      case awaitingHost => exact hb.resumeSearch hG hst _
      case checking => exact hb.resumeChecking hG hst _
      all_goals cases hst
    · rw [returnLane_elsewhere ht]
      exact h.ongoing hst
  · exact .inr h.returnLane

theorem Ongoing.settle (h : Ongoing G l t) : Ongoing G l (t.settle l) := by
  rcases h with ⟨st, hst, h⟩ | h
  · exact h.settled hG hst
  · exact .inr h.settle
end Shielded

/-! ### An entry of the watched check resolved (R162) -/

/-- The guard with a list for the entries that may still stand. -/
def Guard.listing (G : Guard) (ns : List Nat) : Guard := { G with may := (· ∈ ns) }

theorem Shown.listing (h : Shown (G.listing ns) w) (ms : List Nat) : Shown (G.listing ms) w :=
  ⟨h.number, h.override, h.outcome, h.attempted⟩

/-- The first entry of the list no longer stands. -/
theorem OnlyMay.pass {x : ExcTable} (h : OnlyMay (G.listing (n :: ns)) l x)
    (hn : ∀ e ∈ x.entries, e.number = n → e.state = .resolved) : OnlyMay (G.listing ns) l x where
  standing e he c hc hof hs := by
    rcases List.mem_cons.mp (h.standing e he c hc hof hs) with hen | hen
    · exact absurd (hn e he hen) hs
    · exact hen
  named e he hm := h.named e he (List.mem_cons_of_mem _ hm)
  below m hm := h.below m (List.mem_cons_of_mem _ hm)

theorem resolved_noNew (t : State) (n : Nat) (o : Resolution) : NoNew t.exc (t.modEntry n fun x => x.resolved o).exc :=
  .map _ (resolved_case n o) rfl rfl

theorem resolved_state {d : Entry} (o : Resolution) (hd : d ∈ (t.modEntry n fun x => x.resolved o).exc.entries) (hn : d.number = n) :
    d.state = .resolved := by
  obtain ⟨c, -, rfl⟩ := List.mem_map.mp hd
  split at hn
  · next hc => rw [if_pos hc]; rfl
  · next hc => exact absurd hn hc

theorem Undecided.passTo {t u : State} (h : Undecided (G.listing (n :: ns)) l st t) (hl : u.lane l = t.lane l)
    (hx : OnlyMay (G.listing ns) l u.exc) : Undecided (G.listing ns) l st u := by
  obtain ⟨w, hw, hs, hv⟩ := h.visit
  exact ⟨⟨w, by rw [State.visit, hl]; exact hw, hs.listing ns, hv⟩, hx, hl ▸ h.under⟩

theorem Formed.passTo {t u : State} (h : Formed (G.listing (n :: ns)) l t) (hl : u.lane l = t.lane l)
    (hx : OnlyMay (G.listing ns) l u.exc) : Formed (G.listing ns) l u := by
  obtain ⟨w, hw, hs, hv⟩ := h.visit
  exact ⟨⟨w, by rw [State.visit, hl]; exact hw, hs.listing ns, hv⟩, hx, hl ▸ h.past⟩

/-- An entry of a check, OVERRIDDEN: only its block, if it stood under RETRY, is told. -/
theorem resolveEntry_overridden (hl : e.lane = some l) {c : CheckName} (hc : checkOf e.kind e.pos = some c) :
    t.resolveEntry e .overridden =
      if e.retrying then (t.modEntry e.number fun x => x.resolved .overridden).tellBlock l e
      else t.modEntry e.number fun x => x.resolved .overridden := by
  have hv : ∀ s : State, s.resolutionOnVisit l e .overridden = s := fun s => ite_self s
  have hk : e.kind ≠ .inspectionFull ∧ e.kind ≠ .signStalled ∧ e.kind ≠ .barrierFault := by
    refine ⟨?_, ?_, ?_⟩ <;> intro h <;> rw [h] at hc <;> cases hc
  obtain ⟨h1, h2, h3⟩ := hk
  simp only [State.resolveEntry, hl, h1, h2, h3, if_false, and_false, hv]

/-- The block of an entry other than of NO_BOOKING forms no verdict. -/
theorem Undecided.tellBlock (hG : G.Shielded) (h : Undecided G l st t) (hk : e.kind ≠ .noBooking) :
    Undecided G l st (t.tellBlock l e) := by
  unfold State.tellBlock
  split
  · split
    · exact .ite (h.closeSeal hG _) h
    · exact h
  · split
    · exact .ite h (.ite (h.unsurveyed hG _) (h.modPos _ _))
    · exact h
  · next hn => exact absurd hn hk
  · exact h

theorem tellBlock_noBooking (hk : e.kind = .noBooking) : t.tellBlock l e = if t.undecided l e.visit then t.searchGivenUp l else t := by
  unfold State.tellBlock
  rw [hk]

theorem kind_of_booking {k : ExcKind} {p : Option Pos} (h : checkOf k p = some .booking) : k = .noBooking ∨ k = .bookingInUse := by
  revert h
  rcases p with _ | _ | _ <;> cases k <;> decide

/-- Once the verdict is formed the block of an entry of BOOKING does nothing. -/
theorem Formed.tellBlock (h : Formed G l t) (hc : checkOf e.kind e.pos = some .booking) : t.tellBlock l e = t := by
  obtain ⟨w, hw, -, hv⟩ := h.visit
  have hu : t.undecided l e.visit = false := by
    obtain ⟨d, hd⟩ := Option.ne_none_iff_exists'.mp hv
    simp [State.undecided, hw, hd]
  rcases kind_of_booking hc with hk | hk
  · rw [tellBlock_noBooking hk, hu]
    rfl
  · unfold State.tellBlock
    rw [hk]

/-- The state of an override's resolutions: reads are still gathered, or the verdict has been formed by the end of a search, whose
entries belong to BOOKING. -/
def Resolving (G : Guard) (l : LaneNo) (t : State) : Prop :=
  (∃ st : LaneState, st.gathers = true ∧ Undecided G l st t) ∨ Formed G l t ∧ G.check = some .booking

theorem Resolving.ongoing (h : Resolving G l t) : Ongoing G l t := h.imp_right And.left

theorem Resolving.entries (h : Resolving G l t) : OnlyMay G l t.exc := h.ongoing.guarded.entries

/-- The first entry of the list is resolved or no longer stands. -/
theorem Resolving.passTo (h : Resolving (G.listing (n :: ns)) l t) (hl : u.lane l = t.lane l)
    (hx : OnlyMay (G.listing ns) l u.exc) : Resolving (G.listing ns) l u := by
  rcases h with ⟨st, hst, h⟩ | ⟨h, hc⟩
  · exact .inl ⟨st, hst, h.passTo hl hx⟩
  · exact .inr ⟨h.passTo hl hx, hc⟩

theorem Resolving.tellBlock (hG : G.Shielded) (h : Resolving G l t) {c : CheckName} (hc : G.check = some c)
    (he : checkOf e.kind e.pos = some c) : Resolving G l (t.tellBlock l e) := by
  rcases h with ⟨st, hst, h⟩ | ⟨h, hb⟩
  · by_cases hk : e.kind = .noBooking
    · have hb : c = .booking := by
        rw [hk] at he
        exact (Option.some.inj he).symm
      have ho : Ongoing G l (t.tellBlock l e) := by
        rw [tellBlock_noBooking hk]
        exact .ite (h.searchGivenUp hG hst) (h.ongoing hst)
      exact ho.imp_right fun hf => ⟨hf, hb ▸ hc⟩
    · exact .inl ⟨st, hst, h.tellBlock hG hk⟩
  · have hcb : c = .booking := Option.some.inj (hc.symm.trans hb)
    rw [h.tellBlock (hcb ▸ he)]
    exact .inr ⟨h, hb⟩

theorem Resolving.resolveEntry (hG : (G.listing ns).Shielded) (h : Resolving (G.listing (e.number :: ns)) l t) {c : CheckName}
    (hc : G.check = some c) (hof : OfCheck l G.visit.number c e) : Resolving (G.listing ns) l (t.resolveEntry e .overridden) := by
  have h1 : Resolving (G.listing ns) l (t.modEntry e.number fun x => x.resolved .overridden) :=
    h.passTo rfl ((h.entries.noNew (resolved_noNew t _ .overridden)).pass fun d hd hn => resolved_state .overridden hd hn)
  rw [resolveEntry_overridden hof.1 hof.2.2]
  split
  · exact h1.tellBlock hG hc hof.2.2
  · exact h1

/-- OVERRIDDEN entries stand no longer, and nothing else of the guarded visit has moved. -/
theorem Resolving.resolveAll (hG : ∀ ns, (G.listing ns).Shielded) (h : Resolving (G.listing ns) l t) (hw : Work l s t) :
    Resolving (G.listing []) l
      (t.resolveAll (fun st => st == .opened || st == .logged) .overridden ns).1 := by
  induction ns generalizing t with
  | nil => exact h
  | cons n ns ih =>
    have hb := hw.act.bounds
    unfold State.resolveAll
    split
    · next e he =>
      have hm := List.mem_of_find?_eq_some he
      obtain rfl := State.entry_number he
      obtain ⟨c, hc, hof⟩ := h.entries.named e hm List.mem_cons_self
      split
      · exact ih (h.resolveEntry (hG ns) hc hof) (hw.resolveEntry e _ hof.1)
      · next hs =>
        refine ih (h.passTo rfl (h.entries.pass fun d hd hn => ?_)) hw
        rw [hb.entry_mem he hd hn]
        revert hs
        cases e.state <;> decide
    · next he =>
      refine ih (h.passTo rfl (h.entries.pass fun d hd hn => ?_)) hw
      exact absurd (beq_iff_eq.mpr hn) (List.find?_eq_none.mp he d hd)

/-! ### OVERRIDE (R121) -/

/-- The visit with an override of a check set or taken away. -/
def withOverride (v : Visit) (c : CheckName) (o : Option Bool) : Visit :=
  { v with checks := v.checks.set c { v.checks.get c with override := o } }

theorem setOverride_eq (s : State) (l : LaneNo) (c : CheckName) (o : Option Bool) :
    s.setOverride l c o = s.modVisit l fun v => withOverride v c o := rfl

theorem withOverride_get (v : Visit) (c : CheckName) (o : Option Bool) :
    (withOverride v c o).checks.get c = { v.checks.get c with override := o } := Checks.get_set_same ..

theorem withOverride_other {c k : CheckName} (h : k ≠ c) (v : Visit) (o : Option Bool) :
    (withOverride v c o).checks.get k = v.checks.get k := Checks.get_set_other _ _ h

theorem takesOverride_iff (hv : s.visit l = some v) : s.takesOverride l = true ↔
    (s.lane l).under.gathers = true ∧ v.verdict = none := by
  simp [State.takesOverride, hv]

/-- No two entries have one number (R154). -/
theorem entry_unique (hb : Bounds s) {d e : Entry} (hd : d ∈ s.exc.entries) (he : e ∈ s.exc.entries) (h : d.number = e.number) :
    d = e := by
  obtain ⟨x, hx⟩ : ∃ x, s.entry e.number = some x :=
    Option.isSome_iff_exists.mp (List.find?_isSome.mpr ⟨e, he, beq_self_eq_true e.number⟩)
  exact (hb.entry_mem hx hd h).trans (hb.entry_mem hx he rfl).symm

/-- What is known of the visit as its check takes an override. -/
def overrideGuard (v : Visit) (c : CheckName) (b : Bool) : Guard :=
  ⟨withOverride v c (some b), (· = c), some c, fun _ => False⟩

theorem overrideGuard_shielded (v : Visit) (c : CheckName) (b : Bool) (ns : List Nat) :
    ((overrideGuard v c b).listing ns).Shielded := by
  have ho : Overridden (withOverride v c (some b)) c := by
    rw [Overridden, withOverride_get]
    exact Option.some_ne_none _
  exact ⟨fun n hn => by cases hn; exact ho, fun k hk => by cases hk; exact ho⟩

/-- As the override is taken, the check's entries are those that the request resolves. -/
theorem setOverride_resolving (hb : Bounds s) (hv : s.visit l = some v) (ht : s.takesOverride l = true) (c : CheckName) (b : Bool) :
    Resolving ((overrideGuard v c b).listing ((s.setOverride l c (some b)).entriesOf l c)) l (s.setOverride l c (some b)) := by
  obtain ⟨hg, hd⟩ := (takesOverride_iff hv).mp ht
  have hn : ((s.setOverride l c (some b)).lane l).visitNumber = v.number :=
    visitNumber_of_visit (v := withOverride v c (some b)) (by rw [setOverride_eq, State.modVisit_visit, hv]; rfl)
  have hmem : ∀ n, n ∈ (s.setOverride l c (some b)).entriesOf l c ↔
      ∃ e ∈ s.exc.entries, OfCheck l v.number c e ∧ e.number = n := by
    intro n
    simp only [State.entriesOf, hn, List.mem_map, List.mem_filter, Entry.ofVisit, Bool.and_eq_true, beq_iff_eq, OfCheck,
      and_assoc]
    rfl
  refine .inl ⟨_, hg, ⟨withOverride v c (some b), by rw [setOverride_eq, State.modVisit_visit, hv]; rfl, .self _, hd⟩,
    ⟨fun e he k hk hof _ => ?_, fun e he hm => ?_, fun n hm => ?_⟩, by rw [setOverride_eq, State.modVisit_lane]; rfl⟩
  · cases hk
    exact (hmem _).mpr ⟨e, he, hof, rfl⟩
  · obtain ⟨d, hd, hof, hnum⟩ := (hmem _).mp hm
    obtain rfl : d = e := entry_unique hb hd he hnum
    exact ⟨c, rfl, hof⟩
  · obtain ⟨d, hd, -, rfl⟩ := (hmem _).mp hm
    exact hb.below d hd

end Sys2Proof.Machine.VerdictLaws
end

section
/-! SUPPORT. O46: a check that has lost its override is evaluated from the data held (R123). -/

namespace Sys2Proof.Machine.VerdictLaws

open Sys2Proof.Machine.VisitLaws

variable {s t u : State} {l : LaneNo} {v w : Visit} {c : CheckName} {p : Pos} {d : DamagePart} {o : Outcome}

/-! ### The lane that stays where it is -/

/-- The lane stays in its state, or its TROUBLE interrupts that state. -/
structure Stays (l : LaneNo) (s t : State) : Prop where
  state : (t.lane l).state = (s.lane l).state ∨ (t.lane l).state = .trouble
  under : (t.lane l).under = (s.lane l).under

theorem Stays.refl (l : LaneNo) (s : State) : Stays l s s := ⟨.inl rfl, rfl⟩

theorem Stays.trans (h : Stays l s t) (k : Stays l t u) : Stays l s u :=
  ⟨k.state.elim (fun e => h.state.imp e.trans e.trans) .inr, k.under.trans h.under⟩

theorem Stays.modVisit (h : Stays l s t) (f : Visit → Visit) : Stays l s (t.modVisit l f) :=
  h.trans ⟨.inl (by rw [State.modVisit_lane]; rfl), by rw [State.modVisit_lane]; rfl⟩

theorem Stays.lane (h : Stays l s t) (k : u.lane l = t.lane l) : Stays l s u := h.trans ⟨.inl (by rw [k]), by rw [k]⟩

theorem stays_enterTrouble (t : State) (l : LaneNo) : Stays l t (t.enterTrouble l) := by
  refine ⟨?_, enterTrouble_under t l⟩
  by_cases h : (t.lane l).state = .closed ∨ (t.lane l).state = .trouble
  · rw [State.enterTrouble, if_pos h]; exact .inl rfl
  · obtain ⟨hc, ht⟩ := not_or.mp h
    exact .inr (enterTrouble_shows hc ht).state

/-- A raise for the lane leaves its visit as it is, or stills it in TROUBLE. -/
theorem raiseVisit_shows (s : State) (k : ExcKind) (l : LaneNo) (q : Option Pos) (n : Nat) :
    Stays l s (s.raiseVisit k l q n).1 ∧
      ((s.raiseVisit k l q n).1.visit l = s.visit l ∨ (s.raiseVisit k l q n).1.visit l = (s.visit l).map stilled) := by
  refine raiseExc_ind (P := fun t => t.lane l = s.lane l)
    (Q := fun t => Stays l s t ∧ (t.visit l = s.visit l ∨ t.visit l = (s.visit l).map stilled)) rfl rfl (fun _ _ _ => rfl)
    (fun _ _ _ _ _ _ _ => by rw [queueNotice_lane]; rfl) (fun t h => ⟨(Stays.refl l s).lane h, .inl (by rw [State.visit, h]; rfl)⟩)
    fun t h => ⟨((Stays.refl l s).lane h).trans (stays_enterTrouble t l), ?_⟩
  have hv : t.visit l = s.visit l := by rw [State.visit, h]; rfl
  exact hv ▸ enterTrouble_visit t l

/-! ### A damage part under evaluation -/

/-- A DAMAGE check follows the outcome of its part and the effect read with it alone. -/
theorem damageEval_congr {a b : DamagePart} (k : Check) (ho : a.outcome = b.outcome) (he : a.effectInspect = b.effectInspect) :
    damageEval k a = damageEval k b := by
  unfold damageEval
  rw [ho, he]

/-- The lane's visit has the checks of `v`, and its damage part at a position evaluates as `d`. -/
structure PartAs (l : LaneNo) (p : Pos) (v : Visit) (d : DamagePart) (t : State) : Prop where
  visit : ∃ w, t.visit l = some w ∧ w.checks = v.checks ∧ w.verdict = v.verdict ∧ (w.pos p).damage.outcome = d.outcome ∧
    (w.pos p).damage.effectInspect = d.effectInspect

theorem PartAs.modDamage (h : PartAs l p v d t) {f : DamagePart → DamagePart} (ho : ∀ x, (f x).outcome = x.outcome)
    (he : ∀ x, (f x).effectInspect = x.effectInspect) : PartAs l p v d (t.modPos l p fun r => r.modDamage f) := by
  obtain ⟨w, hw, hc, hv, hout, heff⟩ := h.visit
  obtain ⟨-, hsc, hsv, -⟩ := setPos_unseen w p ((w.pos p).modDamage f)
  refine ⟨w.setPos p ((w.pos p).modDamage f), by rw [State.modPos, State.modVisit_visit, hw]; rfl, hsc.trans hc, hsv.trans hv, ?_, ?_⟩
  · rw [Visit.pos_setPos_same]; exact (ho _).trans hout
  · rw [Visit.pos_setPos_same]; exact (he _).trans heff

theorem partAs_modDamage (hv : s.visit l = some v) (f : DamagePart → DamagePart) :
    PartAs l p v (f (v.pos p).damage) (s.modPos l p fun r => r.modDamage f) := by
  obtain ⟨-, hc, hd, -⟩ := setPos_unseen v p ((v.pos p).modDamage f)
  refine ⟨v.setPos p ((v.pos p).modDamage f), by rw [State.modPos, State.modVisit_visit, hv]; rfl, hc, hd, ?_, ?_⟩ <;>
    rw [Visit.pos_setPos_same] <;> rfl

theorem PartAs.raiseVisit (h : PartAs l p v d t) (k : ExcKind) (q : Option Pos) (n : Nat) :
    PartAs l p v d (t.raiseVisit k l q n).1 := by
  obtain ⟨w, hw, hc, hv, ho, he⟩ := h.visit
  rcases (raiseVisit_shows t k l q n).2 with hr | hr
  · exact ⟨w, hr.trans hw, hc, hv, ho, he⟩
  · exact ⟨stilled w, hr.trans (congrArg _ hw), hc, hv, by cases p <;> exact ho, by cases p <;> exact he⟩

theorem PartAs.raiseDamage (h : PartAs l p v d t) (hs : Stays l s t) (was : DamageOutcome) :
    PartAs l p v d (t.raiseDamage l p was) ∧ Stays l s (t.raiseDamage l p was) := by
  have raised : ∀ k n f, (∀ x : DamagePart, (f x).outcome = x.outcome) → (∀ x : DamagePart, (f x).effectInspect = x.effectInspect) →
      PartAs l p v d ((t.raiseVisit k l (some p) n).1.modPos l p fun r => r.modDamage f) ∧
        Stays l s ((t.raiseVisit k l (some p) n).1.modPos l p fun r => r.modDamage f) := fun k n f ho he =>
    ⟨(h.raiseVisit k _ n).modDamage ho he, (hs.trans (raiseVisit_shows t k l _ n).1).modVisit _⟩
  simp only [State.raiseDamage]
  split
  · exact ⟨h, hs⟩
  · split
    · split
      · exact ⟨h, hs⟩
      · exact raised _ _ _ (fun _ => rfl) fun _ => rfl
    · split
      · exact ⟨h, hs⟩
      · exact raised _ _ _ (fun _ => rfl) fun _ => rfl
    · exact ⟨h, hs⟩

/-! ### The check freed -/

/-- The lane's visit has the checks of `v`, but for one that has taken an outcome; no verdict is formed and the lane stays. -/
structure Freed (s : State) (l : LaneNo) (v : Visit) (c : CheckName) (o : Outcome) (t : State) : Prop where
  visit : ∃ w, t.visit l = some w ∧ w.checks = v.checks.set c ((v.checks.get c).take o) ∧ w.verdict = none
  stays : Stays l s t

theorem freed_evaluate (hv : t.visit l = some v) (hd : v.verdict = none) (hs : Stays l s t) (c : CheckName) (a : Bool) :
    Freed s l v c (outcomeNow v (t.claimedMoves l) c a) (t.evaluate l c a) :=
  ⟨⟨taking v c _, by rw [State.evaluate, State.modVisit_visit, hv, ← evaluate_eq hd]; rfl, rfl, hd⟩, hs.modVisit _⟩

theorem outcomeNow_damage (v : Visit) (ms : List Move) (p : Pos) (a : Bool) :
    outcomeNow v ms (damageCheck p) a = damageEval (v.checks.get (damageCheck p)) (v.pos p).damage := by
  cases p <;> rfl

theorem PartAs.freed (h : PartAs l p v d t) (hd : v.verdict = none) (hs : Stays l s t) (a : Bool) :
    Freed s l v (damageCheck p) (damageEval (v.checks.get (damageCheck p)) d) (t.evaluate l (damageCheck p) a) := by
  obtain ⟨w, hw, hc, hwv, ho, he⟩ := h.visit
  obtain ⟨⟨y, hy, hyc, hyv⟩, hst⟩ := freed_evaluate hw (hwv.trans hd) hs (damageCheck p) a
  rw [outcomeNow_damage, hc, damageEval_congr _ ho he] at hyc
  exact ⟨⟨y, hy, hyc, hyv⟩, hst⟩

theorem Freed.lane (h : Freed s l v c o t) (hl : u.lane l = t.lane l) : Freed s l v c o u := by
  obtain ⟨w, hw, hr⟩ := h.visit
  exact ⟨⟨w, by rw [State.visit, hl]; exact hw, hr⟩, h.stays.lane hl⟩

theorem Freed.modPos (h : Freed s l v c o t) (f : PosRec → PosRec) : Freed s l v c o (t.modPos l p f) := by
  obtain ⟨w, hw, hc, hv⟩ := h.visit
  obtain ⟨-, hsc, hsv, -⟩ := setPos_unseen w p (f (w.pos p))
  exact ⟨⟨w.setPos p (f (w.pos p)), by rw [State.modPos, State.modVisit_visit, hw]; rfl, hsc.trans hc, hsv.trans hv⟩,
    h.stays.modVisit _⟩

theorem clearEntry_lane (t : State) (n : Option Nat) (l : LaneNo) : (t.clearEntry n).lane l = t.lane l := by
  unfold State.clearEntry
  split
  · exact reportCleared_lane ..
  · rfl

/-- A survey graded again (R102, R113). -/
theorem freed_gradeSurvey (hv : s.visit l = some v) (hd : v.verdict = none) {m : Move} (hm : s.moveOf l p = some m) (sv : Survey) :
    Freed s l v (damageCheck p)
      (damageEval (v.checks.get (damageCheck p)) ((v.pos p).damage.grade (s.gradeTerms m.known) sv)) (s.gradeSurvey l p sv) := by
  have h1 := partAs_modDamage (p := p) hv fun x : DamagePart =>
    { x.grade (s.gradeTerms m.known) sv with phase := if x.phase = .extended then .closed else x.phase }
  obtain ⟨h2, hs⟩ := h1.raiseDamage ((Stays.refl l s).modVisit _) (s.posRec l p).damage.outcome
  have h3 := h2.freed hd hs false
  simp only [State.gradeSurvey, hm]
  split
  · exact h3.lane (clearEntry_lane ..)
  · exact h3

/-- What the damage part of a position comes to as its check is evaluated again (R111, R113): a graded survey is graded again, an
UNSURVEYED part without one reads the survey-missing effect. -/
def regraded (s : State) (l : LaneNo) (p : Pos) (d : DamagePart) : DamagePart :=
  match d.graded with
  | some sv =>
    match s.moveOf l p with
    | some m => d.grade (s.gradeTerms m.known) sv
    | none => d
  | none => if d.outcome = .unsurveyed then { d with effectInspect := s.store.work.surveyMissingInspect } else d

theorem damagePos_damageCheck (p : Pos) : (damageCheck p).damagePos = some p := by cases p <;> rfl

theorem freed_damage (hv : s.visit l = some v) (hd : v.verdict = none) (p : Pos) (a : Bool) :
    Freed s l v (damageCheck p) (damageEval (v.checks.get (damageCheck p)) (regraded s l p (v.pos p).damage))
      (s.evaluateAgain l (damageCheck p) a) := by
  have plain := freed_evaluate hv hd (.refl l s) (damageCheck p) false
  rw [outcomeNow_damage] at plain
  unfold State.evaluateAgain regraded
  rw [damagePos_damageCheck]
  dsimp only
  rw [ReadLaws.posRec_eq hv]
  cases (v.pos p).damage.graded with
  | some sv =>
    cases hm : s.moveOf l p with
    | some m => exact Freed.modPos (p := p) (freed_gradeSurvey hv hd hm sv) fun r => r.modDamage fun x => { x with held := _ }
    | none => exact plain
  | none =>
    dsimp only
    split
    · exact PartAs.freed (partAs_modDamage hv fun x => { x with effectInspect := _ }) hd ((Stays.refl l s).modVisit _) false
    · exact plain

/-- The outcome that UNOVERRIDE gives a check from the data held (R123). -/
def freedOutcome (s : State) (l : LaneNo) (v : Visit) (c : CheckName) : Outcome :=
  match c.damagePos with
  | some p => damageEval (v.checks.get c) (regraded s l p (v.pos p).damage)
  | none => if c = .watch ∧ v.attempted = false then .pending else outcomeNow v (s.claimedMoves l) c v.attempted

theorem evaluateFreed_freed (hv : s.visit l = some v) (hd : v.verdict = none) (c : CheckName) :
    Freed s l v c (freedOutcome s l v c) (s.evaluateFreed l c) := by
  have ha : ((s.visit l).any fun v => v.attempted) = v.attempted := by rw [hv]; rfl
  unfold State.evaluateFreed freedOutcome
  rw [ha]
  cases hp : c.damagePos with
  | some p =>
    obtain rfl : c = damageCheck p := by cases c <;> cases hp <;> rfl
    dsimp only
    rw [if_neg (by cases p <;> simp [damageCheck])]
    exact freed_damage hv hd p _
  | none =>
    dsimp only
    split
    · next hw =>
      exact ⟨⟨taking v c .pending, by rw [State.modVisit_visit, hv]; rfl, rfl, hd⟩, (Stays.refl l s).modVisit _⟩
    · have he : s.evaluateAgain l c v.attempted = s.evaluate l c v.attempted := by rw [State.evaluateAgain, hp]
      rw [he]
      exact freed_evaluate hv hd (.refl l s) c _

/-- Once the check is freed, the conditions are tested: an attempt moves no outcome but those of RELEASE and WATCH. -/
theorem Freed.settle (h : Freed s l v c o t) (hg : (s.lane l).under.gathers = true) (ho : (v.checks.get c).override = none) :
    ∃ w, (t.settle l).visit l = some w ∧ (∀ k, (w.checks.get k).override = (v.checks.get k).override) ∧
      ((s.lane l).state ≠ .checking ∨ c ≠ .release ∧ c ≠ .watch → (w.checks.get c).outcome = o) ∧
      ((s.lane l).state ≠ .checking → (w.checks.get c).changed = ((v.checks.get c).changed || o != (v.checks.get c).outcome)) := by
  obtain ⟨y, hy, hyc, hyv⟩ := h.visit
  have hov : ∀ k, (y.checks.get k).override = (v.checks.get k).override := fun k => by rw [hyc, ReadLaws.take_set_override]
  have hout : (y.checks.get c).outcome = o := by rw [hyc, Checks.get_set_same, take_outcome ho]
  have hu : Undecided (.only y fun k => k ≠ .release ∧ k ≠ .watch) l (s.lane l).under t :=
    ⟨⟨y, hy, .self _, hyv⟩, .of_only, h.stays.under⟩
  by_cases hc : (s.lane l).state = .checking
  · obtain ⟨w, hw, hs⟩ := (hu.settle hg (entriesShut_only _ _) (fun hr => absurd rfl hr.1) fun hr => absurd rfl hr.2).guarded.visit
    exact ⟨w, hw, fun k => (hs.override k).trans (hov k),
      fun hk => (hs.outcome c (hk.resolve_left (not_not_intro hc))).trans hout, fun hn => absurd hc hn⟩
  · have ht : (t.lane l).state ≠ .checking := by
      rcases h.stays.state with e | e <;> rw [e]
      · exact hc
      · decide
    rw [settle_elsewhere ht]
    exact ⟨y, hy, hov, fun _ => hout, fun _ => by rw [hyc, Checks.get_set_same, take_changed ho]⟩

end Sys2Proof.Machine.VerdictLaws
end

section
/-! SUPPORT. O46: the outcome of a check freed, read off the data held (R117 to R120, R113, R123). -/

namespace Sys2Proof.Machine.VerdictLaws

open Sys2Proof.Machine.VisitLaws

variable {s : State} {l : LaneNo} {v : Visit} {c : CheckName} {p : Pos} {d : DamagePart}

/-! ### An override is no data (R123) -/

theorem setOverride_visit (hv : s.visit l = some v) (c : CheckName) (o : Option Bool) :
    (s.setOverride l c o).visit l = some (withOverride v c o) := by
  rw [setOverride_eq, State.modVisit_visit, hv]
  rfl

theorem setOverride_claimedMoves (hv : s.visit l = some v) (c : CheckName) (o : Option Bool) :
    (s.setOverride l c o).claimedMoves l = s.claimedMoves l := by
  rw [ReadLaws.claimedMoves_eq (setOverride_visit hv c o), ReadLaws.claimedMoves_eq hv]
  rfl

theorem setOverride_moveOf (hv : s.visit l = some v) (c : CheckName) (o : Option Bool) (p : Pos) :
    (s.setOverride l c o).moveOf l p = s.moveOf l p := by
  rw [ReadLaws.moveOf_eq (setOverride_visit hv c o), ReadLaws.moveOf_eq hv, setOverride_claimedMoves hv]
  cases p <;> rfl

theorem setOverride_regraded (hv : s.visit l = some v) (c : CheckName) (o : Option Bool) (p : Pos) (d : DamagePart) :
    regraded (s.setOverride l c o) l p d = regraded s l p d := by
  unfold regraded
  rw [setOverride_moveOf hv]
  rfl

theorem outcomeNow_withOverride (v : Visit) (ms : List Move) (c : CheckName) (o : Option Bool) (a : Bool) :
    outcomeNow (withOverride v c o) ms c a = outcomeNow v ms c a := by
  cases c <;> rfl

theorem freedOutcome_setOverride (hv : s.visit l = some v) (c : CheckName) (o : Option Bool) :
    freedOutcome (s.setOverride l c o) l (withOverride v c o) c = freedOutcome s l v c := by
  unfold freedOutcome
  rw [outcomeNow_withOverride, setOverride_claimedMoves hv]
  cases hp : c.damagePos with
  | none => rfl
  | some p =>
    dsimp only
    rw [setOverride_regraded hv, withOverride_get]
    cases p <;> rfl

/-! ### What the data give each check -/

theorem freedOutcome_plain (hp : c.damagePos = none) (hw : c ≠ .watch) :
    freedOutcome s l v c = outcomeNow v (s.claimedMoves l) c v.attempted := by
  rw [freedOutcome, hp]
  exact if_neg fun h => hw h.1

theorem freedOutcome_watch : freedOutcome s l v .watch =
    if v.attempted = false then .pending else if watchFails v.checks.watch v then .watchHit else .pass := by
  change (if CheckName.watch = .watch ∧ v.attempted = false then Outcome.pending else watchEval v.checks.watch v v.attempted) = _
  cases v.attempted <;> rfl

theorem freedOutcome_damage (p : Pos) : freedOutcome s l v (damageCheck p) =
    damageEval (v.checks.get (damageCheck p)) (regraded s l p (v.pos p).damage) := by
  cases p <;> rfl

/-- An identity with an INSPECT mark fails WATCH unless it is waived; a spanning box is waived under either position. -/
theorem watchFails_eq (k : Check) (v : Visit) :
    let marked (m : Option Watch) (is : List Identity) : Bool :=
      m.any (fun x => x.action == .inspect) && !(is.any fun i => k.waivers.contains (.identity i))
    watchFails k v = (marked v.plateWatch [.plate] || (if v.front.spanning then marked v.front.watch [.front, .rear]
      else marked v.front.watch [.front] || marked v.rear.watch [.rear])) := by
  simp only [List.any_cons, List.any_nil, Bool.or_false]
  rfl

theorem searchEval_eq (k : Check) (o : Outcome) (x : ExcKind) (claim : Option Nat) : searchEval k o x claim.isSome =
    if k.waives x then (if claim = none then .pending else .pass) else o := by
  cases claim <;> rfl

/-- Some import to be picked up is not released. -/
theorem firstUnreleased_isSome (ms : List Move) :
    (firstUnreleased ms).isSome = ms.any fun m => m.kind == .pickImport && !m.released := by
  have hz : ((List.range ms.length).zip ms).map Prod.snd = ms := List.map_snd_zip (by simp)
  conv_rhs => rw [← hz]
  rw [firstUnreleased, Option.isSome_map, List.isSome_find?, List.any_map]
  rfl

theorem holdsBringIn_iff (ms : List Move) (r : PosRec) : holdsBringIn ms r = true ↔
    ∃ m ∈ ms, m.kind.bringIn = true ∧ m.cid ≠ none ∧ m.cid = r.cid := by
  have hf : (bringIns ms).map Prod.snd = ms.filter fun m => m.kind.bringIn := by
    rw [bringIns_eq, placedMoves, List.map_map]
    conv_rhs => rw [← List.zipIdx_map_fst 0 ms, List.filter_map]
    rfl
  have hany : ∀ f : Move → Bool, ((bringIns ms).any fun m => f m.2) = (ms.filter fun m => m.kind.bringIn).any f := fun f => by
    rw [← hf, List.any_map]
    rfl
  unfold holdsBringIn
  cases hr : r.cid with
  | none => simp
  | some t =>
    rw [Option.any_some, hany fun m => m.cid == some t]
    simp only [List.any_eq_true, List.mem_filter, beq_iff_eq, and_assoc]
    exact exists_congr fun m => and_congr_right fun _ => and_congr_right fun _ =>
      ⟨fun h => ⟨by rw [h]; exact Option.some_ne_none _, h⟩, And.right⟩

/-- A grade is CLEAN, NOTED or SEVERE. -/
theorem gradeOf_ne_unsurveyed (t : GradeTerms) (e : Nat) (b : Bool) : gradeOf t e b ≠ .unsurveyed := by
  unfold gradeOf
  split
  · decide
  · split
    · decide
    · split <;> decide

/-- The outcome of a DAMAGE check by the outcome of its part and the survey-missing effect. -/
def damageValue (k : Check) (i : Bool) : DamageOutcome → Outcome
  | .pending => .pending
  | .clean => .clean
  | .noted => .noted
  | .severe => failing k .damageSevere .severe
  | .unsurveyed => if i then failing k .surveyMissing .surveyMissing else .pass
  | .notApplicable => .pass

theorem damageEval_eq (k : Check) (d : DamagePart) : damageEval k d = damageValue k d.effectInspect d.outcome := by
  unfold damageEval
  cases d.outcome <;> rfl

/-- The part evaluated again stands at its grade, if it has a graded survey, and else reads the effect as it is set now. -/
theorem damageEval_regraded (k : Check) (h : d.graded ≠ none → s.moveOf l p ≠ none) : damageEval k (regraded s l p d) =
    damageValue k s.store.work.surveyMissingInspect (regraded s l p d).outcome := by
  rw [damageEval_eq]
  unfold regraded
  cases hg : d.graded with
  | some sv =>
    cases hm : s.moveOf l p with
    | some m =>
      have hne : (d.grade (s.gradeTerms m.known) sv).outcome ≠ .unsurveyed := gradeOf_ne_unsurveyed _ _ _
      dsimp only
      cases ho : (d.grade (s.gradeTerms m.known) sv).outcome
      case unsurveyed => exact absurd ho hne
      all_goals rfl
    | none => exact absurd hm (h (by simp [hg]))
  | none =>
    dsimp only
    split
    · rfl
    · next ho =>
      cases hx : d.outcome
      case unsurveyed => exact absurd hx ho
      all_goals rfl

theorem regraded_outcome_of_graded {sv : Survey} {m : Move} (hg : d.graded = some sv) (hm : s.moveOf l p = some m) :
    (regraded s l p d).outcome = (d.grade (s.gradeTerms m.known) sv).outcome := by
  unfold regraded
  rw [hg, hm]

theorem regraded_outcome_of_none (hg : d.graded = none) : (regraded s l p d).outcome = d.outcome := by
  unfold regraded
  rw [hg]
  dsimp only
  split <;> rfl

end Sys2Proof.Machine.VerdictLaws
end

section
/-! O46: OVERRIDE and UNOVERRIDE (R121, R123). -/

namespace Sys2Proof.Machine.VerdictLaws

open Sys2Proof.Machine.VisitLaws

variable {s : State} {l : LaneNo} {v : Visit} {c : CheckName} {n : Nat}

theorem ruleOverride_taken (hl : laneOf n = some l) (ht : s.takesOverride l = true) (b : Bool) : ruleOverride s (n, c, b) =
    okay ((((s.setOverride l c (some b)).resolveAll (fun st => st == .opened || st == .logged) .overridden
      ((s.setOverride l c (some b)).entriesOf l c)).1.returnLane l).settle l) :=
  (withLane_some hl _).trans (if_neg (by simp [ht]))

/-- The visit keeps its number and the check its outcome; the override is taken and the check's entries stand no longer. -/
theorem overridden_guarded (hb : Bounds s) (hv : s.visit l = some v) (ht : s.takesOverride l = true) (c : CheckName) (b : Bool) :
    Guarded ((overrideGuard v c b).listing []) l
      ((((s.setOverride l c (some b)).resolveAll (fun st => st == .opened || st == .logged) .overridden
        ((s.setOverride l c (some b)).entriesOf l c)).1.returnLane l).settle l) :=
  have hG := overrideGuard_shielded v c b
  ((((setOverride_resolving hb hv ht c b).resolveAll hG ((Work.refl hb).setOverride _ _)).ongoing.returnLane (hG [])).settle
    (hG [])).guarded

theorem ruleUnoverride_none (hl : laneOf n = some l) (ht : s.takesOverride l = true) (hv : s.visit l = some v)
    (ho : (v.checks.get c).override = none) : ruleUnoverride s (n, c) = okay s := by
  refine (withLane_some hl _).trans ((if_neg (by simp [ht])).trans ?_)
  rw [hv, Option.bind_some, ho]

theorem ruleUnoverride_some (hl : laneOf n = some l) (ht : s.takesOverride l = true) (hv : s.visit l = some v)
    (ho : (v.checks.get c).override ≠ none) : ruleUnoverride s (n, c) =
      okay (((s.setOverride l c none).evaluateFreed l c).settle l) := by
  obtain ⟨b, hb⟩ := Option.ne_none_iff_exists'.mp ho
  refine (withLane_some hl _).trans ((if_neg (by simp [ht])).trans ?_)
  rw [hv, Option.bind_some, hb]

/-- The check freed has the outcome that the data held give it, but that an attempt in CHECKING evaluates RELEASE and WATCH again. -/
theorem freed_check (hv : s.visit l = some v) (ht : s.takesOverride l = true) (c : CheckName) :
    ∃ w, (((s.setOverride l c none).evaluateFreed l c).settle l).visit l = some w ∧ (w.checks.get c).override = none ∧
      (∀ k, k ≠ c → (w.checks.get k).override = (v.checks.get k).override) ∧
      ((s.lane l).state ≠ .checking ∨ c ≠ .release ∧ c ≠ .watch → (w.checks.get c).outcome = freedOutcome s l v c) ∧
      ((s.lane l).state ≠ .checking →
        (w.checks.get c).changed = ((v.checks.get c).changed || freedOutcome s l v c != (v.checks.get c).outcome)) := by
  obtain ⟨hg, hd⟩ := (takesOverride_iff hv).mp ht
  have hlane : (s.setOverride l c none).lane l = (s.lane l).modVisit fun v => withOverride v c none := State.modVisit_lane ..
  have h := evaluateFreed_freed (setOverride_visit hv c none) hd c
  rw [freedOutcome_setOverride hv] at h
  obtain ⟨w, hw, hov, hout, hch⟩ := h.settle (by rw [hlane]; exact hg) (by rw [withOverride_get])
  rw [hlane, withOverride_get] at *
  refine ⟨w, hw, (hov c).trans (by rw [withOverride_get]), fun k hk => (hov k).trans (by rw [withOverride_other hk]), hout, hch⟩

end Sys2Proof.Machine.VerdictLaws
end

section
open Sys2Proof Sys2Proof.Machine Sys2Proof.Machine.VisitLaws Sys2Proof.Machine.VerdictLaws

/-- Settles O46: the resolutions and the return from TROUBLE move nothing of an overridden check; a check freed is evaluated from the
data held, and the conditions tested after it evaluate no check but RELEASE and WATCH. -/
theorem checksAreOverridden : Obligations.ChecksAreOverridden := by
  refine fun s u tag body hb => ⟨fun n c b hask hr => ?_, fun n c hask hr => ?_⟩
  · have answers : ∀ {a}, ruleOverride u (n, c, b) = a → Answers (.override tag body) s 0x17 tag a.s a.status a.data :=
      fun {_} ha => answers_of_rule rfl hask hr ha
    refine ⟨fun hl => answers (withLane_none hl _), fun l hl =>
      ⟨fun ht => answers ((withLane_some hl _).trans (if_pos ht)), fun ht v hv => ?_⟩⟩
    obtain ⟨⟨w, hw, hs⟩, hx⟩ := overridden_guarded hb hv ht c b
    have hset : ((withOverride v c (some b)).checks.get c).override = some b := by rw [withOverride_get]
    have hkept : ((withOverride v c (some b)).checks.get c).outcome = (v.checks.get c).outcome := by rw [withOverride_get]
    refine ⟨_, answers (ruleOverride_taken hl ht b), ?_, ?_, ?_, fun k hk => ?_, fun e he h1 h2 h3 => ?_⟩
    · exact (congrArg _ hw).trans (congrArg some hs.number)
    · exact (congrArg _ hw).trans (congrArg some ((hs.override c).trans hset))
    · exact (congrArg _ hw).trans (congrArg some ((hs.outcome c rfl).trans hkept))
    · exact (congrArg _ hw).trans (congrArg some ((hs.override k).trans
        (congrArg Check.override (withOverride_other hk v (some b)))))
    · by_contra hst
      exact List.not_mem_nil (hx.standing e he c rfl ⟨h1, h2, h3⟩ hst)
  · have answers : ∀ {a}, ruleUnoverride u (n, c) = a → Answers (.unoverride tag body) s 0x18 tag a.s a.status a.data :=
      fun {_} ha => answers_of_rule rfl hask hr ha
    refine ⟨fun hl => answers (withLane_none hl _), fun l hl =>
      ⟨fun ht => answers ((withLane_some hl _).trans (if_pos ht)), fun ht v hv =>
        ⟨fun ho => answers (ruleUnoverride_none hl ht hv ho), fun ho => ?_⟩⟩⟩
    obtain ⟨w, hw, hc, hk, hout, hch⟩ := freed_check hv ht c
    refine ⟨_, answers (ruleUnoverride_some hl ht hv ho), (congrArg _ hw).trans (congrArg some hc),
      fun k hkc => (congrArg _ hw).trans (congrArg some (hk k hkc)), ?_⟩
    intro was work moves orPass search id sealed damaged inspects anew hgraded
    have hmoves : u.claimedMoves l = moves := ReadLaws.claimedMoves_eq hv
    have hid : ∀ r, idEval was v.claimed.isSome moves r = id r := by
      intro r
      cases hcl : v.claimed with
      | none =>
        simp only [idEval, idEvalOpen, id, hcl]
        simp
      | some k =>
        simp only [idEval, idEvalClaimed, id, hcl, ← holdsBringIn_iff, PosRec.lacksBox]
        simp [or_comm]
    have hdamaged : ∀ p, ((v.pos p).damage.graded ≠ none → u.moveOf l p ≠ none) →
        damageEval was (regraded u l p (v.pos p).damage) = damaged (v.pos p).damage (u.moveOf l p) := by
      intro p hp
      rw [damageEval_regraded _ hp]
      simp only [damaged]
      cases hg : (v.pos p).damage.graded with
      | none => rw [regraded_outcome_of_none hg]; cases (v.pos p).damage.outcome <;> rfl
      | some sv =>
        obtain ⟨m, hm⟩ := Option.ne_none_iff_exists'.mp (hp (by simp [hg]))
        rw [regraded_outcome_of_graded hg hm, hm]
        rfl
    have hanew : freedOutcome u l v c = anew := by
      cases c with
      | booking =>
        rw [freedOutcome_plain rfl (by decide)]
        simp only [outcomeNow, bookingEval, searchEval_eq]
        rfl
      | timeliness =>
        rw [freedOutcome_plain rfl (by decide)]
        simp only [outcomeNow, timelinessEval, searchEval_eq]
        rfl
      | release =>
        rw [freedOutcome_plain rfl (by decide), hmoves]
        simp only [outcomeNow, releaseEval, firstUnreleased_isSome, anew]
        cases v.attempted <;> cases v.claimed <;> rfl
      | watch =>
        rw [freedOutcome_watch, watchFails_eq]
        rfl
      | idFront => exact (freedOutcome_plain rfl (by decide)).trans (hmoves ▸ hid v.front)
      | idRear => exact (freedOutcome_plain rfl (by decide)).trans (hmoves ▸ hid v.rear)
      | sealFront => exact freedOutcome_plain rfl (by decide)
      | sealRear => exact freedOutcome_plain rfl (by decide)
      | damageFront => exact (freedOutcome_damage .front).trans (hdamaged .front fun h => (hgraded (.inl rfl) .front h).2)
      | damageRear => exact (freedOutcome_damage .rear).trans (hdamaged .rear fun h => (hgraded (.inr rfl) .rear h).2)
    exact ⟨fun h => (congrArg _ hw).trans (congrArg some ((hout h).trans hanew)),
      fun h => (congrArg _ hw).trans (congrArg some ((hch h).trans (by rw [hanew])))⟩
end
